-- ==== Sys2Proof/Word.lean ====
section
/-! DEFINITION. The word types of the AP3 and the names of its repeated units (00_scope.md, Conventions). -/

namespace Sys2Proof

/-- One byte, on the digitizer link (R5) or at a port (R172). -/
abbrev Byte := BitVec 8

/-- A slot index: an unsigned 32-bit count that wraps modulo 2^32 (R1). -/
abbrev Index := BitVec 32

/-- A sample value in digitizer counts: 24-bit two's complement (R2, R189). -/
abbrev Sample := BitVec 24

/-- An energy in energy units, 0 … 2^32 − 1 (R2, R49). -/
abbrev Energy := BitVec 32

/-- A record's serial, 0 … 65,535 (R120). -/
abbrev Serial := BitVec 16

/-- A settings generation, 0 … 65,535 (R166). -/
abbrev Generation := BitVec 16

/-- The three frequency bands; each has its own Trigger Unit (00_scope.md, Band). -/
inductive Band where
  | b0 | b1 | b2
deriving DecidableEq, Repr

/-- The two ports, each with its Reader Context, fetch engine and attention line. -/
inductive Port where
  | a | b
deriving DecidableEq, Repr

/-- The four lanes of the Onset Refiner, lowest number first (R92). -/
inductive LaneId where
  | l0 | l1 | l2 | l3
deriving DecidableEq, Repr

/-- The number of a band, as it is sent in a record or a response (R192, R191). -/
def Band.number : Band → Nat
  | .b0 => 0
  | .b1 => 1
  | .b2 => 2

/-- "The other port" is the port other than the one through which a request arrived. -/
def Port.other : Port → Port
  | .a => .b
  | .b => .a

end Sys2Proof
end

