-- ==== Sys2Proof/Config.lean ====
section
/-! DEFINITION. The numbers the spec fixes for every AP3. No value is left to an implementation. -/

namespace Sys2Proof.Config

/-- f_ref, the link and timing reference, in periods a second (00_scope.md, Rates and times; R10). -/
def fRef : Nat := 24576000

/-- Slot positions of the Waveform Ring (R35). -/
def ringDepth : Nat := 8192

/-- Reads the arbiter grants at most in one interval (R40). -/
def intervalBudget : Nat := 48

/-- The lanes' share of an interval's reads (R38). -/
def laneShare : Nat := 40

/-- The fetch engines' share of an interval's reads (R38). -/
def fetchShare : Nat := 8

/-- Least spacing of two grants, in periods of f_ref (R38). -/
def grantSpacing : Nat := 32

/-- Requests the launch queue holds (R89, R90). -/
def queueDepth : Nat := 6

/-- Records the Pick List holds (R129). -/
def listDepth : Nat := 64

/-- Serials a delivered sequence holds (R139). -/
def windowDepth : Nat := 16

/-- The count at which an armed list raises NEAR_FULL (R133). -/
def nearFullAt : Nat := 56

/-- The count below which the near-full flag is set again (R133). -/
def nearFullRearm : Nat := 48

/-- Slots the longest FETCH names (R182). -/
def fetchMax : Nat := 256

/-- Slots one READ FETCH returns at most (R185). -/
def readFetchMax : Nat := 16

/-- The sync byte of a digitizer frame (R7). -/
def syncByte : Byte := 0xC5

/-- Bytes of a frame after its sync byte (R8). -/
def frameBytes : Nat := 12

/-- The gap-run, warm and dead counts hold here (R21, R64, R75). -/
def countTop : Nat := 65535

/-- The largest energy (R49). -/
def energyTop : Nat := 4294967295

/-- Slot writes that may follow the start of a resolution before its completion (R95). -/
def resolutionWrites : Nat := 4

end Sys2Proof.Config
end

