-- ==== Sys2Proof/Machine/Bits.lean ====
section
/-! DEFINITION. Bit and byte order at the ports (R172, R189), index comparison (R1), clamping (R158) and the
base-2 logarithm of the refiner (R3). -/

namespace Sys2Proof.Machine

/-- The byte whose bits, most significant first, are given (R172). -/
def byteOfBits (b7 b6 b5 b4 b3 b2 b1 b0 : Bool) : Byte :=
  BitVec.ofNat 8 (128 * b7.toNat + 64 * b6.toNat + 32 * b5.toNat + 16 * b4.toNat
    + 8 * b3.toNat + 4 * b2.toNat + 2 * b1.toNat + b0.toNat)

/-- A byte's bits in the order they travel at a port, most significant first (R172). -/
def bitsOfByte (v : Byte) : List Bool :=
  [v.getLsbD 7, v.getLsbD 6, v.getLsbD 5, v.getLsbD 4, v.getLsbD 3, v.getLsbD 2, v.getLsbD 1, v.getLsbD 0]

/-- The bits of a run of bytes, first byte first (R172). -/
def bitsOfBytes (bs : List Byte) : List Bool :=
  bs.flatMap bitsOfByte

/-- The whole bytes among shifted-in bits; the bits of an incomplete last byte are discarded (R172). -/
def wholeBytes : List Bool → List Byte
  | b7 :: b6 :: b5 :: b4 :: b3 :: b2 :: b1 :: b0 :: more =>
    byteOfBits b7 b6 b5 b4 b3 b2 b1 b0 :: wholeBytes more
  | _ => []

/-- A 16-bit number sent most significant byte first (R174). -/
def word16 (hi lo : Byte) : Nat := 256 * hi.toNat + lo.toNat

/-- The 16-bit numbers of a run of bytes, in order. -/
def words16 : List Byte → List Nat
  | hi :: lo :: more => word16 hi lo :: words16 more
  | _ => []

/-- A 32-bit slot index sent most significant byte first (R190). -/
def index32 (b3 b2 b1 b0 : Byte) : Index :=
  BitVec.ofNat 32 (16777216 * b3.toNat + 65536 * b2.toNat + 256 * b1.toNat + b0.toNat)

/-- A 24-bit two's complement sample, most significant byte first (R189). -/
def sample24 (b2 b1 b0 : Byte) : Sample :=
  BitVec.ofNat 24 (65536 * b2.toNat + 256 * b1.toNat + b0.toNat)

/-- A number sent in one byte. -/
def bytes8 (n : Nat) : List Byte := [BitVec.ofNat 8 n]

/-- A number sent in two bytes, most significant first. -/
def bytes16 (n : Nat) : List Byte := [BitVec.ofNat 8 (n / 256), BitVec.ofNat 8 n]

/-- A number sent in three bytes, most significant first. -/
def bytes24 (n : Nat) : List Byte :=
  [BitVec.ofNat 8 (n / 65536), BitVec.ofNat 8 (n / 256), BitVec.ofNat 8 n]

/-- A number sent in four bytes, most significant first. -/
def bytes32 (n : Nat) : List Byte :=
  [BitVec.ofNat 8 (n / 16777216), BitVec.ofNat 8 (n / 65536), BitVec.ofNat 8 (n / 256), BitVec.ofNat 8 n]

/-- `a` is earlier than `b`: (b − a) mod 2^32 lies in 1 … 2^31 − 1 (R1). -/
def earlier (a b : Index) : Bool :=
  decide (1 ≤ (b - a).toNat) && decide ((b - a).toNat < 2147483648)

/-- `a` is `b` or earlier than `b`, by the rule of R1. -/
def notLater (a b : Index) : Bool := a == b || earlier a b

/-- The slot distance from `a` on to `b`: (b − a) mod 2^32. -/
def distance (a b : Index) : Nat := (b - a).toNat

/-- An index sum with a slot count, modulo 2^32 (R1). -/
def addSlots (i : Index) (n : Nat) : Index := i + BitVec.ofNat 32 n

/-- An index less a slot count, modulo 2^32 (R1). -/
def subSlots (i : Index) (n : Nat) : Index := i - BitVec.ofNat 32 n

/-- A value outside its range takes the nearest bound of the range (R158). -/
def clamp (lo hi v : Nat) : Nat :=
  if v < lo then lo else if hi < v then hi else v

/-- The refiner's base-2 logarithm with a linear mantissa (R3). -/
def lg (v : Nat) : Nat :=
  if v = 0 then 0
  else 256 * Nat.log2 v + 256 * (v - 2 ^ Nat.log2 v) / 2 ^ Nat.log2 v

/-- One update of an exponential average: x + ⌊(t − x) / 2^k⌋, floor division also for a negative
difference (R4, R46, R58). -/
def approach (k : Nat) (x t : Int) : Int := x + (t - x) / 2 ^ k

end Sys2Proof.Machine
end

