-- ==== Sys2Proof/Machine/RequestCodes.lean ====
section
/-! DEFINITION. The first byte of each request and the mode bytes of ATTACH (R190). -/

namespace Sys2Proof.Machine

def codeIdentify : Byte := 0x01
def codeStatus : Byte := 0x02
def codeAttach : Byte := 0x10
def codeDetach : Byte := 0x11
def codeTake : Byte := 0x12
def codeConfirm : Byte := 0x13
def codeRewind : Byte := 0x14
def codeFetch : Byte := 0x20
def codeReadFetch : Byte := 0x21
def codeGetProfile : Byte := 0x30
def codeSetProfile : Byte := 0x31
def codeGetStation : Byte := 0x32
def codeSetStation : Byte := 0x33
def codeSetPort : Byte := 0x34
def codeStart : Byte := 0x40
def codeStop : Byte := 0x41
def codeGetAnchor : Byte := 0x50
def codePortReset : Byte := 0x5A

/-- The eighteen first bytes that name a request; any other is answered UNKNOWN (R174, R190). -/
def requestCodes : List Byte :=
  [codeIdentify, codeStatus, codeAttach, codeDetach, codeTake, codeConfirm, codeRewind, codeFetch,
   codeReadFetch, codeGetProfile, codeSetProfile, codeGetStation, codeSetStation, codeSetPort,
   codeStart, codeStop, codeGetAnchor, codePortReset]

/-- The ATTACH mode byte of ALL (R190). -/
def modeAll : Byte := 0x01

/-- The ATTACH mode byte of FROM_NOW (R190). -/
def modeFromNow : Byte := 0x02

end Sys2Proof.Machine
end

