-- ==== Sys2Proof/Syntax.lean ====
section
/-! DEFINITION. The commands of the block: one constructor for each row of spec/opcode_table.json.

A port command is a whole transaction, executed at the release of select (R175). Its `rest` is the bits shifted in
after the bytes that name the row: the parameters, surplus bytes, and the bits of an incomplete last byte (R172). -/

namespace Sys2Proof

/-- A stretch of the digitizer line: levels (true is high) with how many receiver samples each lasts (R5). -/
abbrev Line := List (Bool × Nat)

/-- An edge of the RESET input (R188). -/
inductive ResetEdge where
  /-- RESET is asserted. For each port: the bits its transaction in progress has shifted in, if it has one. -/
  | asserted (a b : Option (List Bool))
  /-- RESET is released. For each port: whether its select is asserted then. -/
  | released (a b : Bool)
deriving DecidableEq, Repr

inductive Instr where
  /-- Power is applied (R22). -/
  | powerOn
  /-- An edge of the RESET input (R188). A release with no assertion before it stands for a whole pulse, which with
  both selects released is the command as it is written without its operand. -/
  | reset (edge : ResetEdge := .released false false)
  /-- The frame in assembly is judged at its twelfth byte (R8), or the slots of a frame judged before are written on
  (R13); `hold` is how many of the frame's slots are left to be written later, none when it is not written. -/
  | frame (hold : Nat := 0)
  /-- The assembly timer expires (R8). -/
  | assemblyTimerExpiry
  /-- The link timer expires (R17). -/
  | linkTimerExpiry
  /-- The gap-slot timer expires (R18). -/
  | gapSlotTimerExpiry
  /-- A rising edge on the time-mark line, `after` periods of f_ref after the present instant (R23). -/
  | timeMark (after : Nat)
  /-- The gap-run event of the newest slot write reaches the three Trigger Units (R21). -/
  | gapRunEvent
  /-- The mark watch of the newest slot write expires (R27). -/
  | watchExpiry
  /-- The holdover limit is passed at the newest slot write (R28). -/
  | holdoverExpiry
  /-- The warm count of a band reaches warm_len at the newest slot write (R64). -/
  | warmCountExpiry (band : Band)
  /-- The newest slot is the confirming slot of a PENDING band (R67). -/
  | primaryDeclaration (band : Band)
  /-- The newest slot decides a band's stacked confirmation (R74). -/
  | stackedDeclaration (band : Band)
  /-- A band's episode reaches max_dur at the newest slot write (R70). -/
  | maxDurExpiry (band : Band)
  /-- The dead count of a band reaches dead_len at the newest slot write (R75). -/
  | deadCountExpiry (band : Band)
  /-- The launch examination (R92). -/
  | launch
  /-- The scan-start step of the newest slot write (R93, R96). -/
  | scanStart
  /-- One grant of the read arbiter (R40). -/
  | readGrant
  /-- A lane's resolution completes (R95). -/
  | resolutionCompletion (lane : LaneId)
  /-- The expiry step of the newest slot write (R96). -/
  | deadlineExpiry
  /-- The release step of the list's handling of the newest slot write (R125). -/
  | release
  /-- The retirement step of the list's handling of the newest slot write (R132). -/
  | retirement
  | identify (port : Port) (rest : List Bool)
  | status (port : Port) (rest : List Bool)
  /-- ATTACH whose mode byte is ALL; `rest` follows the mode byte (R140, R142). -/
  | attachAll (port : Port) (rest : List Bool)
  /-- ATTACH whose mode byte is FROM_NOW; `rest` follows the mode byte (R141, R142). -/
  | attachFromNow (port : Port) (rest : List Bool)
  /-- ATTACH whose first parameter byte, if it came, names neither mode; `rest` begins with that byte (R142). -/
  | attachUnknownMode (port : Port) (rest : List Bool)
  | detach (port : Port) (rest : List Bool)
  | take (port : Port) (rest : List Bool)
  | confirm (port : Port) (rest : List Bool)
  | rewind (port : Port) (rest : List Bool)
  | fetch (port : Port) (rest : List Bool)
  | readFetch (port : Port) (rest : List Bool)
  | getProfile (port : Port) (rest : List Bool)
  | setProfile (port : Port) (rest : List Bool)
  | getStation (port : Port) (rest : List Bool)
  | setStation (port : Port) (rest : List Bool)
  | setPort (port : Port) (rest : List Bool)
  | start (port : Port) (rest : List Bool)
  | stop (port : Port) (rest : List Bool)
  | getAnchor (port : Port) (rest : List Bool)
  | portReset (port : Port) (rest : List Bool)
  /-- A transaction whose first byte `code` names no request (R174). -/
  | unknownRequest (port : Port) (code : Byte) (rest : List Bool)
  /-- A transaction of fewer than eight bits: it carries no request (R172). -/
  | emptyTransaction (port : Port) (bits : List Bool)
  /-- A select asserted too soon after the last release, or still asserted, and the clock periods driven under it;
  `held` when it stays asserted afterwards (R175). -/
  | lockedOutSelect (port : Port) (clocks : Nat) (held : Bool := false)
  /-- The digitizer line from the next sample on, as far as it is given: the bytes it completes are delivered at
  their stop-bit samples (R5, R7). -/
  | byteDelivered (line : Line)
deriving DecidableEq, Repr

end Sys2Proof
end

