-- ==== Sys2Proof/WellFormed.lean ====
section
/-! DEFINITION. When a term of `Instr` is a command of its row. -/

namespace Sys2Proof

/-- The first byte of an unknown request names no request (R174, R190). -/
def Instr.codeNamesNothing (code : Byte) : Bool :=
  !Machine.requestCodes.contains code

/-- The mode of an ATTACH of unknown mode, if a whole byte of it came, is neither ALL nor FROM_NOW (R142). -/
def Instr.modeNamesNothing (rest : List Bool) : Bool :=
  match Machine.wholeBytes rest with
  | mode :: _ => mode != Machine.modeAll && mode != Machine.modeFromNow
  | [] => true

/-- A transaction that shifted in no whole byte has fewer than eight bits (R172). -/
def Instr.noWholeByte (bits : List Bool) : Bool :=
  decide (bits.length < 8)

/-- The three rows whose operands are constrained; every other term is a command. -/
def Instr.wellFormed : Instr → Bool
  | .unknownRequest _ code _ => codeNamesNothing code
  | .attachUnknownMode _ rest => modeNamesNothing rest
  | .emptyTransaction _ bits => noWholeByte bits
  | _ => true

end Sys2Proof
end

