-- ==== Sys2Proof/Decode.lean ====
section
/-! DEFINITION. From a port transaction's bits to its command (R172, R174, R190), and back. The opcode table gives
its rows no bits, so no table word spells a command. -/

namespace Sys2Proof

/-- The table gives no row bits, so no word of it spells a command. -/
def decodeTableWord (_nbits _w : Nat) : Option Instr := none

/-- The command that an ATTACH's bits after its first byte spell (R190). -/
def decodeAttach (p : Port) (rest : List Bool) : Instr :=
  match Machine.wholeBytes rest with
  | mode :: _ =>
    if mode = Machine.modeAll then .attachAll p (rest.drop 8)
    else if mode = Machine.modeFromNow then .attachFromNow p (rest.drop 8)
    else .attachUnknownMode p rest
  | [] => .attachUnknownMode p rest

/-- The command that a first byte and the bits after it spell (R190). -/
def decodeRequest (p : Port) (code : Byte) (rest : List Bool) : Instr :=
  if code = Machine.codeIdentify then .identify p rest
  else if code = Machine.codeStatus then .status p rest
  else if code = Machine.codeAttach then decodeAttach p rest
  else if code = Machine.codeDetach then .detach p rest
  else if code = Machine.codeTake then .take p rest
  else if code = Machine.codeConfirm then .confirm p rest
  else if code = Machine.codeRewind then .rewind p rest
  else if code = Machine.codeFetch then .fetch p rest
  else if code = Machine.codeReadFetch then .readFetch p rest
  else if code = Machine.codeGetProfile then .getProfile p rest
  else if code = Machine.codeSetProfile then .setProfile p rest
  else if code = Machine.codeGetStation then .getStation p rest
  else if code = Machine.codeSetStation then .setStation p rest
  else if code = Machine.codeSetPort then .setPort p rest
  else if code = Machine.codeStart then .start p rest
  else if code = Machine.codeStop then .stop p rest
  else if code = Machine.codeGetAnchor then .getAnchor p rest
  else if code = Machine.codePortReset then .portReset p rest
  else .unknownRequest p code rest

/-- The command of a transaction that shifted in `bits` on port `p` (R172, R174). -/
def decodeTransaction (p : Port) (bits : List Bool) : Instr :=
  match Machine.wholeBytes bits with
  | code :: _ => decodeRequest p code (bits.drop 8)
  | [] => .emptyTransaction p bits

/-- The bits of a transaction that begins with the byte `code`. -/
def requestBits (code : Byte) (rest : List Bool) : List Bool :=
  Machine.bitsOfByte code ++ rest

/-- The port and the shifted-in bits of a command that is a transaction; no other command has any. A locked-out
select shifts in nothing the port takes (R175). -/
def encodeTransaction : Instr → Option (Port × List Bool)
  | .identify p r => some (p, requestBits Machine.codeIdentify r)
  | .status p r => some (p, requestBits Machine.codeStatus r)
  | .attachAll p r => some (p, requestBits Machine.codeAttach (requestBits Machine.modeAll r))
  | .attachFromNow p r => some (p, requestBits Machine.codeAttach (requestBits Machine.modeFromNow r))
  | .attachUnknownMode p r => some (p, requestBits Machine.codeAttach r)
  | .detach p r => some (p, requestBits Machine.codeDetach r)
  | .take p r => some (p, requestBits Machine.codeTake r)
  | .confirm p r => some (p, requestBits Machine.codeConfirm r)
  | .rewind p r => some (p, requestBits Machine.codeRewind r)
  | .fetch p r => some (p, requestBits Machine.codeFetch r)
  | .readFetch p r => some (p, requestBits Machine.codeReadFetch r)
  | .getProfile p r => some (p, requestBits Machine.codeGetProfile r)
  | .setProfile p r => some (p, requestBits Machine.codeSetProfile r)
  | .getStation p r => some (p, requestBits Machine.codeGetStation r)
  | .setStation p r => some (p, requestBits Machine.codeSetStation r)
  | .setPort p r => some (p, requestBits Machine.codeSetPort r)
  | .start p r => some (p, requestBits Machine.codeStart r)
  | .stop p r => some (p, requestBits Machine.codeStop r)
  | .getAnchor p r => some (p, requestBits Machine.codeGetAnchor r)
  | .portReset p r => some (p, requestBits Machine.codePortReset r)
  | .unknownRequest p code r => some (p, requestBits code r)
  | .emptyTransaction p bits => some (p, bits)
  | .powerOn | .reset _ | .frame _ | .assemblyTimerExpiry | .linkTimerExpiry | .gapSlotTimerExpiry
  | .timeMark _ | .gapRunEvent | .watchExpiry | .holdoverExpiry | .warmCountExpiry _
  | .primaryDeclaration _ | .stackedDeclaration _ | .maxDurExpiry _ | .deadCountExpiry _
  | .launch | .scanStart | .readGrant | .resolutionCompletion _ | .deadlineExpiry | .release
  | .retirement | .lockedOutSelect _ _ _ | .byteDelivered _ => none

end Sys2Proof
end

