-- ==== Sys2Proof/Machine/State.lean ====
section
/-! DEFINITION. The state of the AP3, block by block, and its reset values (INVENTORY.md, State). -/

namespace Sys2Proof.Machine

/-! ### Like things side by side -/

/-- One thing for each band. -/
structure Bands (α : Type) where
  b0 : α
  b1 : α
  b2 : α
deriving DecidableEq, Repr

def Bands.get {α : Type} (x : Bands α) : Band → α
  | .b0 => x.b0
  | .b1 => x.b1
  | .b2 => x.b2

def Bands.set {α : Type} (x : Bands α) (b : Band) (v : α) : Bands α :=
  match b with
  | .b0 => { x with b0 := v }
  | .b1 => { x with b1 := v }
  | .b2 => { x with b2 := v }

def Bands.all {α : Type} (v : α) : Bands α := ⟨v, v, v⟩

/-- One thing for each port. -/
structure Ports (α : Type) where
  a : α
  b : α
deriving DecidableEq, Repr

def Ports.get {α : Type} (x : Ports α) : Port → α
  | .a => x.a
  | .b => x.b

def Ports.set {α : Type} (x : Ports α) (p : Port) (v : α) : Ports α :=
  match p with
  | .a => { x with a := v }
  | .b => { x with b := v }

def Ports.all {α : Type} (v : α) : Ports α := ⟨v, v⟩

/-- One thing for each lane. -/
structure Lanes (α : Type) where
  l0 : α
  l1 : α
  l2 : α
  l3 : α
deriving DecidableEq, Repr

def Lanes.get {α : Type} (x : Lanes α) : LaneId → α
  | .l0 => x.l0
  | .l1 => x.l1
  | .l2 => x.l2
  | .l3 => x.l3

def Lanes.set {α : Type} (x : Lanes α) (l : LaneId) (v : α) : Lanes α :=
  match l with
  | .l0 => { x with l0 := v }
  | .l1 => { x with l1 := v }
  | .l2 => { x with l2 := v }
  | .l3 => { x with l3 := v }

def Lanes.all {α : Type} (v : α) : Lanes α := ⟨v, v, v, v⟩

/-- One thing for each component Z, N, E. -/
structure Comps (α : Type) where
  z : α
  n : α
  e : α
deriving DecidableEq, Repr

def Comps.all {α : Type} (v : α) : Comps α := ⟨v, v, v⟩

/-! ### Settings (R157, R162) -/

/-- The nineteen fields of a band profile, in the order of R157. -/
structure Profile where
  fastShift : Nat
  slowShift : Nat
  staShift : Nat
  ltaShift : Nat
  on : Nat
  off : Nat
  jump : Nat
  confirmLen : Nat
  ltaFloor : Nat
  warmLen : Nat
  maxDur : Nat
  deadLen : Nat
  pre : Nat
  post : Nat
  margin : Nat
  polLen : Nat
  ampLen : Nat
  pThresh : Nat
  sThresh : Nat
deriving DecidableEq, Repr

/-- The default profile, with the four shifts that differ between the bands (R157). -/
def Profile.standard (fast slow sta lta : Nat) : Profile where
  fastShift := fast
  slowShift := slow
  staShift := sta
  ltaShift := lta
  on := 48
  off := 24
  jump := 40
  confirmLen := 8
  ltaFloor := 64
  warmLen := 2000
  maxDur := 12000
  deadLen := 100
  pre := 128
  post := 128
  margin := 512
  polLen := 32
  ampLen := 64
  pThresh := 170
  sThresh := 85

/-- The default profile of each band (R157). -/
def Profile.default : Band → Profile
  | .b0 => Profile.standard 4 7 5 10
  | .b1 => Profile.standard 2 5 4 9
  | .b2 => Profile.standard 1 3 3 8

/-- The seven station settings, in SET STATION order (R162, R190). -/
structure Station where
  holdback : Nat
  launches : Nat
  span : Nat
  gapLimit : Nat
  fps : Nat
  holdoverLimit : Nat
  linkDivider : Nat
deriving DecidableEq, Repr

/-- The default station settings (R162). -/
def Station.default : Station where
  holdback := 800
  launches := 3
  span := 100
  gapLimit := 40
  fps := 200
  holdoverLimit := 300
  linkDivider := 3

/-- The core state (R168, R169). -/
inductive CoreState where
  | stopped | running
deriving DecidableEq, Repr

/-- The Settings Store (R171). A band's accepted profile is its staged profile when one is staged and its applied
profile otherwise; both are kept by its Trigger Unit. -/
structure Settings where
  station : Station
  generation : Generation
  core : CoreState
deriving DecidableEq, Repr

/-! ### Frame Intake (R5 to R22) -/

/-- A byte being received: samples since its falling edge, and the data bits taken so far (R5). -/
structure ByteInProgress where
  count : Nat
  bits : Byte
deriving DecidableEq, Repr

/-- The byte receiver: the line at the last sample (true is high), and the byte in progress if one has begun (R5). -/
structure Receiver where
  last : Bool
  busy : Option ByteInProgress
deriving DecidableEq, Repr

/-- A byte delivered to the assembler, with its framing fault (R5). -/
structure LinkByte where
  value : Byte
  fault : Bool
deriving DecidableEq, Repr

/-- The frame assembler: hunting, or collecting the bytes after a sync byte until the assembly timer's instant
of expiry (R7, R8). -/
inductive Assembler where
  | hunting
  | assembling (bytes : List LinkByte) (expiry : Nat)
deriving DecidableEq, Repr

/-- The link states (section 1.5). -/
inductive LinkState where
  | searching | running | lost
deriving DecidableEq, Repr

/-- The values and copied flags of a good frame, and of a slot: what the last good sample keeps (R11). -/
structure Reading where
  z : Sample
  n : Sample
  e : Sample
  clipZ : Bool
  clipN : Bool
  clipE : Bool
  cal : Bool
deriving DecidableEq, Repr

/-- The slots of a judged frame that are still to be written at its judgement: GAP slots, then the frame's own. The
model's own, so that another event can fall between two slot writes of one frame (R13, R24). -/
structure FrameInHand where
  gaps : Nat
  reading : Reading
deriving DecidableEq, Repr

/-- Frame Intake. `line` is the level of the line pin and `nextSample` the instant of the receiver's next sample of
it. Timers are the instants at which they expire; the link divider in force is the station setting. -/
structure FrameIntake where
  link : LinkState
  line : Bool
  nextSample : Nat
  receiver : Receiver
  assembler : Assembler
  nextIndex : Index
  expected : Option Byte
  lastGood : Option Reading
  linkTimer : Option Nat
  gapSlotTimer : Option Nat
  gapRun : Nat
  inHand : Option FrameInHand
deriving DecidableEq, Repr

/-! ### Time Mark Unit (R23 to R33) -/

/-- The timing states (section 2.2). -/
inductive TimingState where
  | none | locked | holdover | free
deriving DecidableEq, Repr

/-- An entry of the anchor table (R25). -/
structure Anchor where
  index : Index
  phase : Nat
  regular : Bool
deriving DecidableEq, Repr

structure TimeMarkUnit where
  timing : TimingState
  latest : Option Anchor
  previous : Option Anchor
  holdover : Nat
deriving DecidableEq, Repr

/-! ### Band Filter Bank (R45 to R57) -/

/-- A fast and a slow average, in 1/256 of a count. -/
structure AveragePair where
  fast : Int
  slow : Int
deriving DecidableEq, Repr

/-- The nine average pairs. -/
abbrev FilterBank := Bands (Comps AveragePair)

/-! ### Waveform Ring (R34 to R44) -/

/-- A slot as the ring stores it (R34). -/
structure Slot where
  reading : Reading
  damaged : Bool
  gap : Bool
  esat : Bool
  energy : Bands Energy
  vertical : Bands Energy
deriving DecidableEq, Repr

/-- What a read returns: the index asked for, and the slot or the overwritten result (R37). -/
structure ReadResult where
  index : Index
  slot : Option Slot
deriving DecidableEq, Repr

/-- The newest index and the newest acceptance instant (R35). -/
structure Newest where
  index : Index
  accepted : Nat
deriving DecidableEq, Repr

/-- The ring: written positions with their slots, positions rising; what it counts; and the read arbiter. -/
structure Ring where
  cells : List (Nat × Slot)
  newest : Option Newest
  written : Nat
  laneReads : Nat
  fetchReads : Nat
  lastServed : Option Port
deriving DecidableEq, Repr

/-! ### Trigger Units (R58 to R87) -/

inductive BandState where
  | off | warming | idle | pending | declared | cooldown
deriving DecidableEq, Repr

/-- A profile waiting for its band to leave PENDING or DECLARED, with its generation (R83). -/
structure Staged where
  profile : Profile
  generation : Generation
deriving DecidableEq, Repr

structure TriggerUnit where
  state : BandState
  sta : Nat
  lta : Nat
  frozenLta : Option Nat
  staMin : Nat
  heldMin : Option Nat
  tOn : Option Index
  tOn2 : Option Index
  warmCount : Nat
  deadCount : Nat
  confirmCount : Nat
  stackCount : Nat
  rewarm : Bool
  episode : BitVec 8
  stack : Nat
  profile : Profile
  generation : Generation
  staged : Option Staged
deriving DecidableEq, Repr

/-! ### Onset Refiner (R88 to R117) -/

/-- The refinement fields a request takes from its band's applied profile (R78). -/
structure RefineFields where
  pre : Nat
  post : Nat
  margin : Nat
  polLen : Nat
  ampLen : Nat
  pThresh : Nat
  sThresh : Nat
deriving DecidableEq, Repr

/-- A refinement request with the refiner's own items; its window length is `Request.length` (R78, R88). -/
structure Request where
  band : Band
  episode : BitVec 8
  stack : Nat
  trigger : Index
  ws : Index
  we : Index
  deadline : Index
  fields : RefineFields
  ratio : Nat
  generation : Generation
  timing : TimingState
  windowEnd : Index
  truncated : Bool
deriving DecidableEq, Repr

/-- What a lane stores of one slot of its window (R94). -/
structure WindowSlot where
  energy : Energy
  vertical : Energy
  gap : Bool
  damaged : Bool
  clipped : Bool
deriving DecidableEq, Repr

/-- A lane; its read count is the length of its stored window. RESOLVING counts the slot writes since its
resolution began (R95). -/
inductive Lane where
  | free
  | waiting (r : Request)
  | scanning (r : Request) (window : List WindowSlot)
  | resolving (r : Request) (window : List WindowSlot) (writes : Nat)
deriving DecidableEq, Repr

structure Refiner where
  queue : List Request
  lanes : Lanes Lane
  history : List Index
deriving DecidableEq, Repr

/-! ### Pick List (R118 to R137) -/

inductive Phase where
  | x | p | s
deriving DecidableEq, Repr

/-- The kind part of an ONSET record (R112, R113). -/
structure OnsetPart where
  band : Band
  episode : BitVec 8
  stack : Nat
  phase : Phase
  uncertainty : Nat
  coarse : Bool
  expired : Bool
  shed : Bool
  truncated : Bool
  gap : Bool
  damaged : Bool
  clipped : Bool
  ratio : Nat
  generation : Generation
  timing : TimingState
  verticalFraction : Option Nat
  peaks : Option (Nat × Nat)
deriving DecidableEq, Repr

inductive CloseCause where
  | fell | capped | cal | gap
deriving DecidableEq, Repr

/-- The kind part of a CLOSE record (R77). -/
structure ClosePart where
  band : Band
  episode : BitVec 8
  duration : Nat
  stacked : Nat
  cause : CloseCause
deriving DecidableEq, Repr

inductive IntakeType where
  | begins | ends
deriving DecidableEq, Repr

/-- The kind part of a TIMING record (R30). -/
structure TimingPart where
  timing : TimingState
  latest : Option Anchor
  previous : Option Anchor
deriving DecidableEq, Repr

inductive Detail where
  | onset (part : OnsetPart)
  | close (part : ClosePart)
  | intake (type : IntakeType)
  | timing (part : TimingPart)
deriving DecidableEq, Repr

/-- A record: the common part and the kind part (R118). `marks` is "confirmed by A" and "confirmed by B". -/
structure Record where
  serial : Serial
  key : Index
  detail : Detail
  released : Bool
  marks : Ports Bool
deriving DecidableEq, Repr

structure PickList where
  records : List Record
  nextSerial : Serial
  holdback : Nat
  newestTaken : Option Index
  nearFullArmed : Bool
deriving DecidableEq, Repr

/-! ### Reader Contexts (R138 to R156) -/

structure Reader where
  attached : Bool
  delivered : List Serial
  threshold : Nat
  armed : Bool
deriving DecidableEq, Repr

/-! ### Port Interfaces (R172 to R188) -/

/-- The eight notice sources, highest priority first (section 10.3). -/
inductive Notice where
  | intake | lost | nearFull | backlog | timing | core | settings | fetch
deriving DecidableEq, Repr

/-- A fetch engine's current fetch; its read count is the length of its buffer (section 10.4). -/
structure Fetch where
  start : Index
  count : Nat
  mask : Bands Bool
  returned : Nat
  buffer : List ReadResult
deriving DecidableEq, Repr

inductive FetchEngine where
  | idle
  | filling (f : Fetch)
  | ready (f : Fetch)
deriving DecidableEq, Repr

/-- The content of a STATUS response (R176). -/
structure StatusBlock where
  core : CoreState
  link : LinkState
  timing : TimingState
  attached : Bool
  backlog : Nat
  deliveredLength : Nat
  fill : Nat
  generation : Generation
  newest : Option Index
  engine : Nat
  notices : BitVec 8
  mask : BitVec 8
deriving DecidableEq, Repr

/-- A response as formed at execution; its bytes are `Response.bytes` (R191). -/
inductive Response where
  | nothing
  | ok
  | adjusted
  | none
  | busy
  | badParam
  | notAttached
  | windowFull
  | unknown (code : Byte)
  | short (code : Byte)
  | identified (source : Notice) (more : Bool)
  | statusBlock (block : StatusBlock)
  | attached (backlog : Nat)
  | taken (backlog : Nat) (record : Record)
  | counted (count : Nat)
  /-- FETCH answered GONE, with the oldest held and the newest index. -/
  | gone (held : Option (Index × Index))
  /-- FETCH answered NOT_YET, with the oldest held and the newest index when the ring holds any. -/
  | notYetHeld (held : Option (Index × Index))
  /-- READ FETCH answered NOT_YET. -/
  | notYet
  | slots (remaining : Nat) (mask : Bands Bool) (results : List ReadResult)
  | profiles (band : Band) (applied : Profile) (generation : Generation) (staged : Option Staged)
  | profileSet (adjusted : Bool) (generation : Generation) (staged : Bool)
  | station (settings : Station) (generation : Generation)
  | stationSet (adjusted : Bool) (generation : Generation)
  | anchors (timing : TimingState) (holdover : Nat) (latest previous : Option Anchor)
deriving DecidableEq, Repr

/-- A Port Interface. `selected` is the level at which the last command left its select pin and `dout` the bits its data-out pin carried under
the last select. The notice set and the mask have the bit order of R190: bit 7 INTAKE … bit 0 FETCH. -/
structure PortInterface where
  response : Response
  lockOut : Bool
  selected : Bool
  notices : BitVec 8
  mask : BitVec 8
  engine : FetchEngine
  dout : List Bool
deriving DecidableEq, Repr

/-! ### The part -/

/-- How far the refiner has come in its handling of the newest slot write (R96). -/
inductive RefinerStep where
  | expiry | scanStart | launch | done
deriving DecidableEq, Repr

/-- How far the list has come in its handling of the newest slot write (R125). -/
inductive ListStep where
  | retire | release | done
deriving DecidableEq, Repr

/-- What the blocks still owe to the newest slot write: the model's own, so that the rows of the table that happen
at a slot write can be taken in any order the spec allows (R100, R123). -/
structure Owed where
  units : Bands Bool
  gapRun : Bool
  refiner : RefinerStep
  list : ListStep
  timing : Bool
deriving DecidableEq, Repr

def Owed.nothing : Owed where
  units := Bands.all false
  gapRun := false
  refiner := .done
  list := .done
  timing := false

/-- The model's own bookkeeping of time: the clock in periods of f_ref since reset, the earliest instant of the next
grant (R38), and the ports whose engines are FILLING in the order they entered it (R42). -/
structure Clock where
  now : Nat
  grantFrom : Nat
  fillOrder : List Port
deriving DecidableEq, Repr

/-- The part. `resetHeld` is the level of the RESET input: true while it is asserted (R188). -/
structure State where
  intake : FrameIntake
  tmu : TimeMarkUnit
  filters : FilterBank
  ring : Ring
  units : Bands TriggerUnit
  refiner : Refiner
  list : PickList
  readers : Ports Reader
  settings : Settings
  ports : Ports PortInterface
  clock : Clock
  owed : Owed
  resetHeld : Bool
  pending : List Instr
deriving DecidableEq, Repr

/-- The machine never faults: the spec gives every command an effect. No constructor is raised, which is safe. -/
inductive Fault where
deriving DecidableEq, Repr

inductive Refusal where
  /-- Raised by no command: the arm of a command that has no meaning yet. Safe. -/
  | notModelled (mnemonic : String)
  /-- Raised by UNKNOWN_REQUEST, ATTACH_UNKNOWN_MODE and EMPTY_TRANSACTION on operands that are not that row's
  command (`Instr.wellFormed`): the transaction they describe is another row's. Safe. -/
  | illFormed (mnemonic : String)
deriving DecidableEq, Repr

/-! ### Reset values -/

/-- R22. The spec gives no reset value for the line's level, for its last sample or for the instant of the first
sample: the link idles high, and the first sample falls one sample period of the divider 3 after the reset
(DESIGN CHOICE, notes/assumptions/10.md). -/
def FrameIntake.reset : FrameIntake where
  link := .searching
  line := true
  nextSample := 4
  receiver := { last := true, busy := none }
  assembler := .hunting
  nextIndex := 0
  expected := none
  lastGood := none
  linkTimer := none
  gapSlotTimer := none
  gapRun := 0
  inHand := none

/-- R33. -/
def TimeMarkUnit.reset : TimeMarkUnit where
  timing := .none
  latest := none
  previous := none
  holdover := 0

/-- R57. -/
def FilterBank.reset : FilterBank := Bands.all (Comps.all { fast := 0, slow := 0 })

/-- R44. -/
def Ring.reset : Ring where
  cells := []
  newest := none
  written := 0
  laneReads := 0
  fetchReads := 0
  lastServed := none

/-- R87. -/
def TriggerUnit.reset (b : Band) : TriggerUnit where
  state := .off
  sta := 0
  lta := 0
  frozenLta := none
  staMin := 0
  heldMin := none
  tOn := none
  tOn2 := none
  warmCount := 0
  deadCount := 0
  confirmCount := 0
  stackCount := 0
  rewarm := false
  episode := 255
  stack := 0
  profile := Profile.default b
  generation := 0
  staged := none

/-- R117. -/
def Refiner.reset : Refiner where
  queue := []
  lanes := Lanes.all .free
  history := []

/-- R137. -/
def PickList.reset : PickList where
  records := []
  nextSerial := 0
  holdback := 800
  newestTaken := none
  nearFullArmed := true

/-- R156. -/
def Reader.reset : Reader where
  attached := false
  delivered := []
  threshold := 8
  armed := true

/-- R171. -/
def Settings.reset : Settings where
  station := Station.default
  generation := 0
  core := .stopped

/-- R188, with the select pin released. -/
def PortInterface.reset : PortInterface where
  response := .nothing
  lockOut := false
  selected := false
  notices := 0
  mask := 255
  engine := .idle
  dout := []

def Clock.reset : Clock where
  now := 0
  grantFrom := 0
  fillOrder := []

/-- The part right after power-on, with no command waiting. -/
def State.reset : State where
  intake := FrameIntake.reset
  tmu := TimeMarkUnit.reset
  filters := FilterBank.reset
  ring := Ring.reset
  units := { b0 := TriggerUnit.reset .b0, b1 := TriggerUnit.reset .b1, b2 := TriggerUnit.reset .b2 }
  refiner := Refiner.reset
  list := PickList.reset
  readers := Ports.all Reader.reset
  settings := Settings.reset
  ports := Ports.all PortInterface.reset
  clock := Clock.reset
  owed := Owed.nothing
  resetHeld := false
  pending := []

end Sys2Proof.Machine
end

