-- ==== Sys2Proof/Machine/Filter.lean ====
section
/-! DEFINITION. The filter step: averages, band-passed values and energies (chapter 4). -/

namespace Sys2Proof.Machine

/-- One pair's update towards 256 times the raw value, by the band's two shifts (R46). -/
def filterPair (p : Profile) (x : Sample) (q : AveragePair) : AveragePair where
  fast := approach p.fastShift q.fast (256 * x.toInt)
  slow := approach p.slowShift q.slow (256 * x.toInt)

/-- The three pairs of one band change together (R46). -/
def filterBand (p : Profile) (r : Reading) (c : Comps AveragePair) : Comps AveragePair where
  z := filterPair p r.z c.z
  n := filterPair p r.n c.n
  e := filterPair p r.e c.e

/-- The quotient of which the band-passed value is the saturation: ⌊(F − G) / 256⌋ (R48). -/
def passedExact (q : AveragePair) : Int := (q.fast - q.slow) / 256

/-- The band-passed value, saturated to the range of a raw sample (R48). -/
def passed (q : AveragePair) : Int :=
  if passedExact q < -8388608 then -8388608
  else if 8388607 < passedExact q then 8388607 else passedExact q

/-- The exact energy quotient of a sum of squares (R49). -/
def energyExact (sum : Int) : Nat := (sum / 256).toNat

/-- An energy saturates at 2^32 − 1 (R49). -/
def energySaturated (x : Nat) : Energy := BitVec.ofNat 32 (min x Config.energyTop)

/-- The sum of squares of a band's three band-passed values (R49). -/
def squareSum (c : Comps AveragePair) : Int := passed c.z ^ 2 + passed c.n ^ 2 + passed c.e ^ 2

/-- The energy e_b of a band (R49). -/
def bandEnergy (c : Comps AveragePair) : Energy := energySaturated (energyExact (squareSum c))

/-- The vertical energy v_b of a band (R49). -/
def bandVertical (c : Comps AveragePair) : Energy := energySaturated (energyExact (passed c.z ^ 2))

/-- A band's contribution to ESAT: a band-passed value or an energy was saturated (R50). -/
def bandSaturates (c : Comps AveragePair) : Bool :=
  passedExact c.z != passed c.z || passedExact c.n != passed c.n || passedExact c.e != passed c.e
    || decide (Config.energyTop < energyExact (squareSum c))
    || decide (Config.energyTop < energyExact (passed c.z ^ 2))

/-- The averages after the filter step of a slot: updated while RUNNING, kept while STOPPED (R45, R53). -/
def filterStep (core : CoreState) (profile : Band → Profile) (r : Reading) (f : FilterBank) : FilterBank :=
  match core with
  | .stopped => f
  | .running =>
    { b0 := filterBand (profile .b0) r f.b0
      b1 := filterBand (profile .b1) r f.b1
      b2 := filterBand (profile .b2) r f.b2 }

/-- The slot handed to the ring, with the energies formed from the updated averages, or zero energies and ESAT
clear while STOPPED (R45, R53). -/
def completeSlot (core : CoreState) (f : FilterBank) (r : Reading) (damaged gap : Bool) : Slot :=
  match core with
  | .stopped =>
    { reading := r, damaged := damaged, gap := gap, esat := false,
      energy := Bands.all 0, vertical := Bands.all 0 }
  | .running =>
    { reading := r, damaged := damaged, gap := gap
      esat := bandSaturates f.b0 || bandSaturates f.b1 || bandSaturates f.b2
      energy := { b0 := bandEnergy f.b0, b1 := bandEnergy f.b1, b2 := bandEnergy f.b2 }
      vertical := { b0 := bandVertical f.b0, b1 := bandVertical f.b1, b2 := bandVertical f.b2 } }

end Sys2Proof.Machine
end

