-- ==== Sys2Proof/Machine/Flags.lean ====
section
/-! DEFINITION. Notices, notice sets and the attention lines (section 10.3). -/

namespace Sys2Proof.Machine

/-- The eight sources in priority order, from highest (R179). -/
def noticeOrder : List Notice :=
  [.intake, .lost, .nearFull, .backlog, .timing, .core, .settings, .fetch]

/-- A source's bit in the notice set and in the enable mask (R190). -/
def Notice.bit : Notice → Nat
  | .intake => 7
  | .lost => 6
  | .nearFull => 5
  | .backlog => 4
  | .timing => 3
  | .core => 2
  | .settings => 1
  | .fetch => 0

/-- A source's number in an IDENTIFY response, 1 … 8 by priority (R191). -/
def Notice.number : Notice → Nat
  | .intake => 1
  | .lost => 2
  | .nearFull => 3
  | .backlog => 4
  | .timing => 5
  | .core => 6
  | .settings => 7
  | .fetch => 8

/-- A notice set with one more source pending; a source is pending at most once (R177). -/
def noticeAdd (n : Notice) (set : BitVec 8) : BitVec 8 :=
  set ||| BitVec.ofNat 8 (2 ^ n.bit)

/-- A notice set without a source (R179). -/
def noticeRemove (n : Notice) (set : BitVec 8) : BitVec 8 :=
  set &&& ~~~ BitVec.ofNat 8 (2 ^ n.bit)

/-- Whether a source is in a set or a mask. -/
def noticeIn (n : Notice) (set : BitVec 8) : Bool := set.getLsbD n.bit

/-- The enabled pending source of highest priority (R179). -/
def highestEnabled (set mask : BitVec 8) : Option Notice :=
  noticeOrder.find? fun n => noticeIn n set && noticeIn n mask

/-- A port's attention line is asserted while an enabled source is pending (R178). -/
def PortInterface.attention (i : PortInterface) : Bool := i.notices &&& i.mask != 0

/-- The attention line of a port (R178). -/
def State.attention (s : State) (p : Port) : Bool := (s.ports.get p).attention

/-- The state with one Port Interface replaced. -/
def State.setPort (s : State) (p : Port) (i : PortInterface) : State :=
  { s with ports := s.ports.set p i }

/-- A notice raised on one port makes its source pending there, enabled or not (R177). -/
def raise (n : Notice) (p : Port) (s : State) : State :=
  s.setPort p { s.ports.get p with notices := noticeAdd n (s.ports.get p).notices }

/-- A notice raised on both ports (R177). -/
def raiseBoth (n : Notice) (s : State) : State := raise n .b (raise n .a s)

end Sys2Proof.Machine
end

