-- ==== Sys2Proof/Machine/Operands.lean ====
section
/-! DEFINITION. The parameters of the requests and their clamping (R158, R163, R167, R174, R190). -/

namespace Sys2Proof.Machine

/-- Nineteen numbers in the order of R157 as a profile; a missing one reads as 0 (never used: R174 answers SHORT). -/
def profileOfWords (ws : List Nat) : Profile where
  fastShift := ws.getD 0 0
  slowShift := ws.getD 1 0
  staShift := ws.getD 2 0
  ltaShift := ws.getD 3 0
  on := ws.getD 4 0
  off := ws.getD 5 0
  jump := ws.getD 6 0
  confirmLen := ws.getD 7 0
  ltaFloor := ws.getD 8 0
  warmLen := ws.getD 9 0
  maxDur := ws.getD 10 0
  deadLen := ws.getD 11 0
  pre := ws.getD 12 0
  post := ws.getD 13 0
  margin := ws.getD 14 0
  polLen := ws.getD 15 0
  ampLen := ws.getD 16 0
  pThresh := ws.getD 17 0
  sThresh := ws.getD 18 0

/-- A profile's fields in the order of R157. -/
def profileWords (p : Profile) : List Nat :=
  [p.fastShift, p.slowShift, p.staShift, p.ltaShift, p.on, p.off, p.jump, p.confirmLen, p.ltaFloor,
   p.warmLen, p.maxDur, p.deadLen, p.pre, p.post, p.margin, p.polLen, p.ampLen, p.pThresh, p.sThresh]

/-- Every field brought into its range, each dependent range judged against fields already clamped (R157, R158). -/
def clampProfile (p : Profile) : Profile :=
  let fast := clamp 0 6 p.fastShift
  let sta := clamp 1 8 p.staShift
  let on := clamp 17 255 p.on
  let post := clamp 16 256 p.post
  { fastShift := fast
    slowShift := clamp (fast + 1) 12 p.slowShift
    staShift := sta
    ltaShift := clamp (sta + 2) 14 p.ltaShift
    on := on
    off := clamp 16 (on - 1) p.off
    jump := clamp 17 255 p.jump
    confirmLen := clamp 1 64 p.confirmLen
    ltaFloor := clamp 1 65535 p.ltaFloor
    warmLen := clamp 0 65535 p.warmLen
    maxDur := clamp 256 65535 p.maxDur
    deadLen := clamp 0 4095 p.deadLen
    pre := clamp 16 256 p.pre
    post := post
    margin := clamp 0 4095 p.margin
    polLen := clamp 4 post p.polLen
    ampLen := clamp 4 post p.ampLen
    pThresh := clamp 129 255 p.pThresh
    sThresh := clamp 0 127 p.sThresh }

/-- Seven numbers in SET STATION order as station settings. -/
def stationOfWords (ws : List Nat) : Station where
  holdback := ws.getD 0 0
  launches := ws.getD 1 0
  span := ws.getD 2 0
  gapLimit := ws.getD 3 0
  fps := ws.getD 4 0
  holdoverLimit := ws.getD 5 0
  linkDivider := ws.getD 6 0

/-- The station settings in SET STATION order. -/
def stationWords (t : Station) : List Nat :=
  [t.holdback, t.launches, t.span, t.gapLimit, t.fps, t.holdoverLimit, t.linkDivider]

/-- Each station setting brought into its range (R162, R163). -/
def clampStation (t : Station) : Station where
  holdback := clamp 640 4096 t.holdback
  launches := clamp 1 4 t.launches
  span := clamp 1 1000 t.span
  gapLimit := clamp 1 1000 t.gapLimit
  fps := clamp 20 500 t.fps
  holdoverLimit := clamp 1 3600 t.holdoverLimit
  linkDivider := clamp 0 255 t.linkDivider

/-- The six settings other than the link divider all equal (R164). -/
def onlyDividerDiffers (a b : Station) : Bool :=
  decide ({ a with linkDivider := 0 } = { b with linkDivider := 0 })

/-- The band a parameter byte names, if any (R190). -/
def bandOfByte (v : Byte) : Option Band :=
  if v = 0 then some .b0 else if v = 1 then some .b1 else if v = 2 then some .b2 else none

/-- The enables of a content mask; bits 7 … 3 are disregarded (R182, R190). -/
def contentMask (v : Byte) : Bands Bool where
  b0 := v.getLsbD 0
  b1 := v.getLsbD 1
  b2 := v.getLsbD 2

end Sys2Proof.Machine
end

