-- ==== Sys2Proof/Machine/Formats.lean ====
section
/-! DEFINITION. The byte layouts of responses, records and fetched slots (R191 to R194). -/

namespace Sys2Proof.Machine

def boolByte (v : Bool) : List Byte := bytes8 v.toNat

def CoreState.code : CoreState → Nat
  | .stopped => 0
  | .running => 1

def LinkState.code : LinkState → Nat
  | .searching => 0
  | .running => 1
  | .lost => 2

def TimingState.code : TimingState → Nat
  | .none => 0
  | .locked => 1
  | .holdover => 2
  | .free => 3

def FetchEngine.code : FetchEngine → Nat
  | .idle => 0
  | .filling _ => 1
  | .ready _ => 2

def Phase.code : Phase → Nat
  | .x => 0
  | .p => 1
  | .s => 2

def CloseCause.code : CloseCause → Nat
  | .fell => 1
  | .capped => 2
  | .cal => 3
  | .gap => 4

def IntakeType.code : IntakeType → Nat
  | .begins => 1
  | .ends => 2

def Detail.code : Detail → Nat
  | .onset _ => 1
  | .close _ => 2
  | .intake _ => 3
  | .timing _ => 4

/-- The flags byte of an ONSET record (R192). -/
def OnsetPart.flags (o : OnsetPart) : Byte :=
  byteOfBits o.coarse o.expired o.shed false o.truncated o.gap o.damaged o.clipped

/-- Bytes 7 … 31 of an ONSET record (R192). -/
def OnsetPart.bytes (o : OnsetPart) : List Byte :=
  bytes8 o.band.number ++ [o.episode] ++ bytes8 o.stack ++ bytes8 o.phase.code ++ bytes8 o.uncertainty
    ++ bytes8 o.ratio ++ [o.flags]
    ++ [byteOfBits false false false false false false o.peaks.isSome o.verticalFraction.isSome]
    ++ bytes8 o.timing.code ++ bytes16 o.generation.toNat ++ bytes8 (o.verticalFraction.getD 0)
    ++ bytes32 (o.peaks.getD (0, 0)).1 ++ bytes32 (o.peaks.getD (0, 0)).2 ++ [0, 0, 0, 0, 0]

/-- Bytes 7 … 15 of a CLOSE record (R193). -/
def ClosePart.bytes (c : ClosePart) : List Byte :=
  bytes8 c.band.number ++ [c.episode] ++ bytes16 c.duration ++ bytes8 c.stacked ++ bytes8 c.cause.code
    ++ [0, 0, 0]

/-- An anchor entry's index, phase and regular indication in a TIMING record; both entries are present in every
such record (R30), and an absent one would be sent as zeros. -/
def anchorOr (a : Option Anchor) : Anchor := a.getD { index := 0, phase := 0, regular := false }

/-- The 24-bit field of state, regular indications and phases (R193). -/
def TimingPart.packed (t : TimingPart) : Nat :=
  4194304 * t.timing.code + 2097152 * (anchorOr t.latest).regular.toNat
    + 1048576 * (anchorOr t.previous).regular.toNat + 1024 * (anchorOr t.latest).phase + (anchorOr t.previous).phase

/-- Bytes 7 … 15 of a TIMING record with a key (R193). -/
def TimingPart.bytes (key : Index) (t : TimingPart) : List Byte :=
  bytes24 t.packed ++ bytes24 (distance (anchorOr t.latest).index key)
    ++ bytes24 (distance (anchorOr t.previous).index (anchorOr t.latest).index)

/-- A record as TAKE delivers it: the common part, then its kind's bytes (R192, R193). -/
def Record.bytes (r : Record) : List Byte :=
  bytes16 r.serial.toNat ++ bytes8 r.detail.code ++ bytes32 r.key.toNat ++
    match r.detail with
    | .onset o => o.bytes
    | .close c => c.bytes
    | .intake t => bytes8 t.code ++ [0, 0, 0, 0, 0, 0, 0, 0]
    | .timing t => t.bytes r.key

/-- The flags byte of a fetched slot (R194). -/
def ReadResult.flags (r : ReadResult) : Byte :=
  match r.slot with
  | none => byteOfBits true false false false false false false false
  | some v => byteOfBits false v.damaged v.gap v.reading.clipZ v.reading.clipN v.reading.clipE v.reading.cal v.esat

/-- The energies of the bands a content mask enables, in ascending band order (R194). -/
def energyBytes (mask : Bands Bool) (e v : Bands Energy) : List Byte :=
  (if mask.b0 then bytes32 e.b0.toNat ++ bytes32 v.b0.toNat else [])
    ++ (if mask.b1 then bytes32 e.b1.toNat ++ bytes32 v.b1.toNat else [])
    ++ (if mask.b2 then bytes32 e.b2.toNat ++ bytes32 v.b2.toNat else [])

/-- A fetched slot; an overwritten result carries zeros (R194, R37). -/
def ReadResult.bytes (mask : Bands Bool) (r : ReadResult) : List Byte :=
  bytes32 r.index.toNat ++ [r.flags] ++
    match r.slot with
    | none => [0, 0, 0, 0, 0, 0, 0, 0, 0] ++ energyBytes mask (Bands.all 0) (Bands.all 0)
    | some v =>
      bytes24 v.reading.z.toNat ++ bytes24 v.reading.n.toNat ++ bytes24 v.reading.e.toNat
        ++ energyBytes mask v.energy v.vertical

/-- An anchor entry in GET ANCHOR: seven bytes, all 0 when absent (R191). R191 names bit 0 and bit 1 of the first byte of
a present entry and not bits 7 to 2, which are sent as 0 (DESIGN CHOICE, notes/assumptions/24.md). -/
def anchorBytes (a : Option Anchor) : List Byte :=
  match a with
  | none => [0, 0, 0, 0, 0, 0, 0]
  | some x => bytes8 (1 + 2 * x.regular.toNat) ++ bytes32 x.index.toNat ++ bytes16 x.phase

/-- A profile's nineteen 16-bit numbers (R191). -/
def profileBytes (p : Profile) : List Byte := (profileWords p).flatMap bytes16

/-- The staged fields of GET PROFILE, all 0 when no profile is staged (R161, R191). -/
def stagedBytes (g : Option Staged) : List Byte :=
  match g with
  | none => [0] ++ bytes16 0 ++ List.replicate 38 0
  | some x => [1] ++ bytes16 x.generation.toNat ++ profileBytes x.profile

/-- The STATUS block (R191). -/
def StatusBlock.bytes (b : StatusBlock) : List Byte :=
  bytes8 b.core.code ++ bytes8 b.link.code ++ bytes8 b.timing.code ++ boolByte b.attached
    ++ bytes8 b.backlog ++ bytes8 b.deliveredLength ++ bytes8 b.fill ++ bytes16 b.generation.toNat
    ++ boolByte b.newest.isSome ++ bytes32 (b.newest.getD 0).toNat ++ bytes8 b.engine ++ [b.notices] ++ [b.mask]

/-- The holding byte and the two indices of a refused FETCH (R191). -/
def heldBytes (h : Option (Index × Index)) : List Byte :=
  match h with
  | none => List.replicate 9 0
  | some (oldest, newest) => [1] ++ bytes32 oldest.toNat ++ bytes32 newest.toNat

def maskByte (m : Bands Bool) : Byte := byteOfBits false false false false false m.b2 m.b1 m.b0

/-- OK or ADJUSTED (R191). -/
def doneByte (adjusted : Bool) : Byte := if adjusted then 0x02 else 0x01

/-- A response's bytes, its status byte first (R191). -/
def Response.bytes : Response → List Byte
  | .nothing => [0x00]
  | .ok => [0x01]
  | .adjusted => [0x02]
  | .none => [0x03]
  | .busy => [0x04]
  | .unknown code => [0x05, code]
  | .short code => [0x06, code]
  | .badParam => [0x07]
  | .notAttached => [0x08]
  | .windowFull => [0x09]
  | .gone h => [0x0A] ++ heldBytes h
  | .notYetHeld h => [0x0B] ++ heldBytes h
  | .notYet => [0x0B]
  | .identified n more => [0x01] ++ bytes8 n.number ++ boolByte more
  | .statusBlock b => [0x01] ++ b.bytes
  | .attached n => [0x01] ++ bytes8 n
  | .taken n r => [0x01] ++ bytes8 n ++ r.bytes
  | .counted n => [0x01] ++ bytes8 n
  | .slots remaining mask rs =>
    [0x01] ++ bytes8 rs.length ++ bytes16 remaining ++ [maskByte mask] ++ rs.flatMap (ReadResult.bytes mask)
  | .profiles b p g st => [0x01] ++ bytes8 b.number ++ bytes16 g.toNat ++ profileBytes p ++ stagedBytes st
  | .profileSet adj g st => [doneByte adj] ++ bytes16 g.toNat ++ bytes8 (if st then 2 else 1)
  | .station t g => [0x01] ++ (stationWords t).flatMap bytes16 ++ bytes16 g.toNat
  | .stationSet adj g => [doneByte adj] ++ bytes16 g.toNat
  | .anchors t h l p => [0x01] ++ bytes8 t.code ++ bytes32 h ++ anchorBytes l ++ anchorBytes p

/-- What a port shifts out in `clocks` clock periods: the response from its first bit, then 0 (R173). -/
def shiftOut (r : Response) (clocks : Nat) : List Bool :=
  (bitsOfBytes r.bytes ++ List.replicate clocks false).take clocks

end Sys2Proof.Machine
end

