-- ==== Sys2Proof/Machine/Link.lean ====
section
/-! DEFINITION. The byte receiver, the check byte and the layout of a digitizer frame (sections 1.1, 1.2, 11.1). -/

namespace Sys2Proof.Machine

/-- The receiver's count at which it looks at the start bit again: eight samples after the falling edge (R5). -/
def startSample : Nat := 8

/-- The receiver's count at the middle of the stop bit, the tenth bit time (R5). -/
def stopSample : Nat := 152

/-- One sample of the line at sixteen times the bit rate, and the byte it completes, if any (R5). -/
def rxSample (level : Bool) (rx : Receiver) : Receiver × Option LinkByte :=
  match rx.busy with
  | none =>
    if rx.last && !level then
      ({ last := level, busy := some { count := 0, bits := 0 } }, none)
    else ({ last := level, busy := none }, none)
  | some b =>
    let count := b.count + 1
    if count = startSample then
      if level then ({ last := level, busy := none }, none)
      else ({ last := level, busy := some { b with count := count } }, none)
    else if count = stopSample then
      ({ last := level, busy := none }, some { value := b.bits, fault := !level })
    else if startSample < count ∧ count % 16 = startSample then
      ({ last := level, busy := some
          { count := count, bits := (b.bits >>> 1) ||| (if level then 0x80 else 0) } }, none)
    else ({ last := level, busy := some { b with count := count } }, none)

/-- The receiver waits and this level begins no byte: any number of samples of it changes nothing else. -/
def rxQuiet (level : Bool) (rx : Receiver) : Bool :=
  rx.busy.isNone && !(rx.last && !level)

/-- Where a run of samples has come to: the receiver, the byte it has completed, and the samples then left. -/
structure RxRun where
  receiver : Receiver
  byte : Option LinkByte
  left : Nat
deriving DecidableEq, Repr

/-- A run of samples at one level, up to the sample that completes a byte. Once a byte has completed, the samples
left of the run begin no other: a byte begins only where the level falls (R5). -/
def rxRun (level : Bool) : Nat → Receiver → RxRun
  | 0, rx => { receiver := rx, byte := none, left := 0 }
  | n + 1, rx =>
    if rxQuiet level rx then { receiver := { rx with last := level }, byte := none, left := 0 }
    else
      match rxSample level rx with
      | (rx', some v) => { receiver := rx', byte := some v, left := n }
      | (rx', none) => rxRun level n rx'

/-- The line of one byte as a digitizer sends it: the rest of an idle bit, the start bit, eight data bits least
significant first, and the stop bit up to its middle sample; 160 samples in all (R5). -/
def lineOfByte (v : Byte) (stop : Bool) : Line :=
  [(true, 7), (false, 16), (v.getLsbD 0, 16), (v.getLsbD 1, 16), (v.getLsbD 2, 16), (v.getLsbD 3, 16),
   (v.getLsbD 4, 16), (v.getLsbD 5, 16), (v.getLsbD 6, 16), (v.getLsbD 7, 16), (stop, 9)]

/-- One bit of the CRC-8 with generator x^8 + x^2 + x + 1 (R9). -/
def crcBit (c : Byte) : Byte := if c.getLsbD 7 then (c <<< 1) ^^^ 0x07 else c <<< 1

/-- A byte enters the CRC most significant bit first (R9). -/
def crcByte (c v : Byte) : Byte :=
  crcBit (crcBit (crcBit (crcBit (crcBit (crcBit (crcBit (crcBit (c ^^^ v))))))))

/-- The CRC-8 of a run of bytes in the order sent, from an initial value of 0 (R9). -/
def crc8 (bs : List Byte) : Byte := bs.foldl crcByte 0

/-- A good frame: its counter and its reading as sent (R189). -/
structure GoodFrame where
  counter : Byte
  reading : Reading
deriving DecidableEq, Repr

/-- A component's CLIP flag: marked in the frame, or at full scale (R11). -/
def clipFlag (marked : Bool) (v : Sample) : Bool :=
  marked || v == 0x7FFFFF || v == 0x800000

/-- The reading of a frame's flags byte and nine sample bytes (R11, R189). -/
def readingOf (flags : Byte) (z n e : Sample) : Reading where
  z := z
  n := n
  e := e
  clipZ := clipFlag (flags.getLsbD 2) z
  clipN := clipFlag (flags.getLsbD 1) n
  clipE := clipFlag (flags.getLsbD 0) e
  cal := flags.getLsbD 7

/-- The frame of the twelve bytes after sync: `none` when it is damaged (R8, R9, R189). -/
def judgeFrame (bs : List LinkByte) : Option GoodFrame :=
  match bs.map LinkByte.value with
  | [counter, flags, z2, z1, z0, n2, n1, n0, e2, e1, e0, check] =>
    if bs.any LinkByte.fault then none
    else if crc8 [counter, flags, z2, z1, z0, n2, n1, n0, e2, e1, e0] = check then
      some { counter := counter, reading := readingOf flags (sample24 z2 z1 z0) (sample24 n2 n1 n0) (sample24 e2 e1 e0) }
    else none
  | _ => none

/-- A frame interval in periods of f_ref at a frame rate (R10). -/
def frameInterval (fps : Nat) : Nat := Config.fRef / fps

end Sys2Proof.Machine
end

