-- ==== Sys2Proof/Machine/PickOps.lean ====
section
/-! DEFINITION. The Pick List's insertion, eviction, release, retirement and removal, and the Reader Contexts'
backlog (chapters 7 and 8). -/

namespace Sys2Proof.Machine

/-- The state with one Reader Context replaced. -/
def State.setReader (s : State) (p : Port) (r : Reader) : State :=
  { s with readers := s.readers.set p r }

/-- The state with the records of the list replaced. -/
def State.setRecords (s : State) (rs : List Record) : State :=
  { s with list := { s.list with records := rs } }

/-! ### Backlog (R153, R154) -/

/-- Whether a record is available to a reader: released, its mark clear, not delivered (R134). -/
def available (p : Port) (rd : Reader) (r : Record) : Bool :=
  r.released && !r.marks.get p && !rd.delivered.contains r.serial

/-- A reader's backlog: the number of its available records, 0 while it is detached (R138, R153). -/
def State.backlog (s : State) (p : Port) : Nat :=
  if (s.readers.get p).attached then
    (s.list.records.filter (available p (s.readers.get p))).length
  else 0

/-- The evaluation of the backlog notice (R154). -/
def evaluateBacklog (p : Port) (s : State) : State :=
  let rd := s.readers.get p
  if rd.armed && decide (rd.threshold ≤ s.backlog p) then
    raise .backlog p (s.setReader p { rd with armed := false })
  else if !rd.armed && decide (s.backlog p < rd.threshold) then
    s.setReader p { rd with armed := true }
  else s

/-- The evaluation for both readers. -/
def evaluateBacklogs (s : State) : State := evaluateBacklog .b (evaluateBacklog .a s)

/-! ### The near-full notice (R133) -/

/-- After an insertion: NEAR_FULL on both ports when the count has reached 56 while armed. -/
def nearFullRise (s : State) : State :=
  if s.list.nearFullArmed && decide (s.list.records.length = Config.nearFullAt) then
    raiseBoth .nearFull { s with list := { s.list with nearFullArmed := false } }
  else s

/-- After removals or retirements: the flag is set again when the count has fallen below 48. -/
def nearFullFall (s : State) : State :=
  if !s.list.nearFullArmed && decide (s.list.records.length < Config.nearFullRearm) then
    { s with list := { s.list with nearFullArmed := true } }
  else s

/-! ### Eviction and retirement (R129, R130, R132) -/

/-- A reader meets an evicted or retired record: LOST when it is attached and its mark is clear, and the record
leaves its delivered sequence (R130). -/
def loseRecord (r : Record) (p : Port) (s : State) : State :=
  let rd := s.readers.get p
  if rd.attached && !r.marks.get p then
    raise .lost p (s.setReader p { rd with delivered := rd.delivered.erase r.serial })
  else s

/-- An evicted or retired record is given to both readers, and their backlogs are evaluated (R130, R154). -/
def loseRecordBoth (r : Record) (s : State) : State :=
  evaluateBacklogs (loseRecord r .b (loseRecord r .a s))

/-- A full list evicts its head (R129). -/
def evictIfFull (s : State) : State :=
  match s.list.records with
  | head :: more =>
    if Config.listDepth ≤ s.list.records.length then loseRecordBoth head (s.setRecords more) else s
  | [] => s

/-! ### Insertion (R120 to R122) -/

/-- The first serial from `v` on that no record present carries, looking at most `fuel` steps on (R120). -/
def freeSerial (used : List Serial) : Nat → Serial → Serial
  | 0, v => v
  | fuel + 1, v => if used.contains v then freeSerial used fuel (v + 1) else v

/-- The place of a record in list order: after every record whose key is earlier or equal, before every record
whose key is later (R121). -/
def placeRecord (new : Record) : List Record → List Record
  | [] => [new]
  | r :: more => if earlier new.key r.key then new :: r :: more else r :: placeRecord new more

/-- A handed-over record is inserted, held, with both marks clear, after the eviction of a full list (R122). -/
def insertRecord (key : Index) (d : Detail) (s0 : State) : State :=
  let s := evictIfFull s0
  let serial := freeSerial (s.list.records.map Record.serial) Config.listDepth s.list.nextSerial
  let record : Record :=
    { serial := serial, key := key, detail := d, released := false, marks := Ports.all false }
  let inserted : State :=
    { s with list := { s.list with
        records := placeRecord record s.list.records
        nextSerial := serial + 1 } }
  if s0.list.records.length < Config.listDepth then nearFullRise inserted else inserted

/-! ### Removal (R127) -/

/-- A record is removable: released, some reader attached, and every attached reader's mark set (R127). -/
def State.removable (s : State) (r : Record) : Bool :=
  r.released && (s.readers.a.attached || s.readers.b.attached)
    && (!s.readers.a.attached || r.marks.a) && (!s.readers.b.attached || r.marks.b)

/-- The removal test applied to the records that `tested` names (R127). -/
def removalTest (tested : Record → Bool) (s : State) : State :=
  nearFullFall (s.setRecords (s.list.records.filter fun r => !(tested r && s.removable r)))

/-! ### The list's handling of a slot write (R125) -/

/-- A record has reached the age limit at the slot write of `n` (R132). -/
def ageLimit (n : Index) (r : Record) : Bool := distance r.key n == 2147483647

/-- A held record's holdback has passed at the slot write of `n` (R125). -/
def releaseDue (h : Nat) (n : Index) (r : Record) : Bool :=
  !r.released && notLater (addSlots r.key h) n

/-- Step 2: the records at the age limit leave the list, each with the effects of an eviction (R132). -/
def retireRecords (n : Index) (s : State) : State :=
  let old := s.list.records.filter (ageLimit n)
  let kept := s.setRecords (s.list.records.filter fun r => !ageLimit n r)
  if old.isEmpty then s else nearFullFall (old.foldl (fun t r => loseRecordBoth r t) kept)

/-- Step 1: the list takes up the holdback and the newest index (R124). -/
def takeUp (n : Index) (s : State) : State :=
  { s with list := { s.list with holdback := s.settings.station.holdback, newestTaken := some n } }

/-- Steps 3 and 4: held records are released, and those just released are tested for removal (R125). -/
def releaseRecords (n : Index) (s : State) : State :=
  let due := (s.list.records.filter (releaseDue s.list.holdback n)).map Record.serial
  let released := s.setRecords (s.list.records.map fun r =>
    if releaseDue s.list.holdback n r then { r with released := true } else r)
  if due.isEmpty then s
  else evaluateBacklogs (removalTest (fun r => due.contains r.serial) released)

/-! ### Attaching and detaching (R140 to R143) -/

/-- A reader's mark set or cleared on every record present. -/
def markAll (p : Port) (m : Bool) (s : State) : State :=
  s.setRecords (s.list.records.map fun r => { r with marks := r.marks.set p m })

/-- ATTACH in either mode, from detached or re-attaching: marks clear for ALL, set for FROM_NOW (R140 to R142). -/
def attachReader (p : Port) (fromNow : Bool) (s : State) : State :=
  let rd := s.readers.get p
  let marked := markAll p fromNow (s.setReader p { rd with attached := true, delivered := [] })
  evaluateBacklog p (removalTest (fun _ => true) marked)

/-- DETACH of an attached reader (R143). -/
def detachReader (p : Port) (s : State) : State :=
  let rd := s.readers.get p
  let cleared := markAll p false (s.setReader p
    { rd with attached := false, delivered := [], armed := true })
  removalTest (fun _ => true) cleared

/-- The first available record in list order (R145). -/
def State.firstAvailable (s : State) (p : Port) : Option Record :=
  s.list.records.find? (available p (s.readers.get p))

/-- The delivered sequence from its first record up to and including serial `v` (R148). -/
def deliveredUpTo (v : Serial) (ds : List Serial) : List Serial :=
  ds.take (ds.idxOf v + 1)

/-- The delivered sequence after serial `v` (R148). -/
def deliveredAfter (v : Serial) (ds : List Serial) : List Serial :=
  ds.drop (ds.idxOf v + 1)

/-- The reader's mark set on the records whose serials are given. -/
def markSerials (p : Port) (vs : List Serial) (s : State) : State :=
  s.setRecords (s.list.records.map fun r =>
    if vs.contains r.serial then { r with marks := r.marks.set p true } else r)

end Sys2Proof.Machine
end

