-- ==== Sys2Proof/Machine/Refine.lean ====
section
/-! DEFINITION. Requests, truncation and the resolution arithmetic of the Onset Refiner (chapter 6). -/

namespace Sys2Proof.Machine

/-! ### Requests (R78, R88) -/

/-- The refinement fields of a profile (R78). -/
def Profile.refineFields (p : Profile) : RefineFields where
  pre := p.pre
  post := p.post
  margin := p.margin
  polLen := p.polLen
  ampLen := p.ampLen
  pThresh := p.pThresh
  sThresh := p.sThresh

/-- The request a declaration forms, with the refiner's own items as they stand when it is taken (R78, R88). -/
def makeRequest (b : Band) (u : TriggerUnit) (stack : Nat) (trigger : Index) (ratio h : Nat)
    (t : TimingState) : Request where
  band := b
  episode := u.episode
  stack := stack
  trigger := trigger
  ws := subSlots trigger u.profile.pre
  we := subSlots (addSlots trigger u.profile.post) 1
  deadline := addSlots (subSlots trigger u.profile.pre) h
  fields := u.profile.refineFields
  ratio := ratio
  generation := u.generation
  timing := t
  windowEnd := subSlots (addSlots trigger u.profile.post) 1
  truncated := false

/-- The window length L: the count of indices from ws to the current window end (R88). -/
def Request.length (r : Request) : Nat := distance r.ws r.windowEnd + 1

/-- A truncation at `t2` for a band reaches a request of the band whose window end is `t2` or later (R101). -/
def Request.reached (r : Request) (b : Band) (t2 : Index) : Bool :=
  decide (r.band = b) && notLater t2 r.windowEnd

/-- A request cut at `t2` (R101). -/
def Request.cut (r : Request) (t2 : Index) : Request :=
  { r with windowEnd := subSlots t2 1, truncated := true }

/-- A truncation at a queued request (R102). -/
def Request.truncate (b : Band) (t2 : Index) (r : Request) : Request :=
  if r.reached b t2 then r.cut t2 else r

/-- A truncation at a lane; RESOLVING lanes are not reached (R101, R103, R104). -/
def Lane.truncate (b : Band) (t2 : Index) : Lane → Lane
  | .free => .free
  | .waiting r => if r.reached b t2 then .scanning (r.cut t2) [] else .waiting r
  | .scanning r w =>
    if r.reached b t2 then
      if (r.cut t2).length ≤ w.length then .resolving (r.cut t2) (w.take (r.cut t2).length) 0
      else .scanning (r.cut t2) w
    else .scanning r w
  | .resolving r w k => .resolving r w k

/-- A lane's request, when it holds one. -/
def Lane.request : Lane → Option Request
  | .free => none
  | .waiting r => some r
  | .scanning r _ => some r
  | .resolving r _ _ => some r

/-- A lane wants a read while it scans and its read count is below L (R94). -/
def Lane.wants : Lane → Bool
  | .scanning r w => decide (w.length < r.length)
  | .free | .waiting _ | .resolving _ _ _ => false

/-- The place of a request in the queue: after every request whose deadline is earlier or equal (R89). -/
def enqueue (new : Request) : List Request → List Request
  | [] => [new]
  | r :: more => if earlier new.deadline r.deadline then new :: r :: more else r :: enqueue new more

/-- What a lane stores of a read of its request's band (R94). -/
def windowSlot (b : Band) (r : ReadResult) : WindowSlot :=
  match r.slot with
  | none => { energy := 0, vertical := 0, gap := false, damaged := false, clipped := false }
  | some v =>
    { energy := v.energy.get b
      vertical := v.vertical.get b
      gap := v.gap
      damaged := v.damaged
      clipped := v.reading.clipZ || v.reading.clipN || v.reading.clipE || v.esat }

/-! ### The governor (R91) -/

/-- The entries of the history the permission uses: the G most recent (R91). -/
def recentLaunches (g : Nat) (history : List Index) : List Index :=
  history.drop (history.length - g)

/-- The governor permits a launch at newest index `n` (R91). -/
def governorPermits (t : Station) (history : List Index) (n : Index) : Bool :=
  decide (((recentLaunches t.launches history).filter
    fun x => decide (distance x n < t.span)).length < t.launches)

/-- A launch at newest index `n` joins the history, which keeps at most G entries (R91). -/
def recordLaunch (g : Nat) (history : List Index) (n : Index) : List Index :=
  recentLaunches g (history ++ [n])

/-- The governor drops the entries that have left the span at the slot write of `n` (R91). -/
def governorDrop (t : Station) (history : List Index) (n : Index) : List Index :=
  history.filter fun x => decide (distance x n < t.span)

/-! ### Resolution (R105 to R111) -/

def sumEnergy (w : List WindowSlot) : Nat := (w.map fun x => x.energy.toNat).sum

def sumVertical (w : List WindowSlot) : Nat := (w.map fun x => x.vertical.toNat).sum

/-- The candidates 8 … L − 8 (R105). -/
def candidates (l : Nat) : List Nat := (List.range (l - 15)).map (· + 8)

/-- The score A(k): each side's slot count times the lg of its mean energy (R105, R106). -/
def score (w : List WindowSlot) (k : Nat) : Nat :=
  k * lg (sumEnergy (w.take k) / k)
    + (w.length - k) * lg ((sumEnergy w - sumEnergy (w.take k)) / (w.length - k))

/-- Every candidate with its score, in ascending order (R105, R106). -/
def scores (w : List WindowSlot) : List (Nat × Nat) :=
  (candidates w.length).map fun k => (k, score w k)

/-- The first of the scored candidates with the least score (R106). -/
def leastScore : List (Nat × Nat) → Option (Nat × Nat)
  | [] => none
  | x :: more =>
    match leastScore more with
    | none => some x
    | some y => if y.2 < x.2 then some y else some x

/-- The best candidate with its score; a window the resolution receives has at least two candidates (R101). -/
def bestScored (w : List WindowSlot) : Nat × Nat := (leastScore (scores w)).getD (8, 0)

/-- The best candidate k* (R106). -/
def bestCandidate (w : List WindowSlot) : Nat := (bestScored w).1

/-- The width of the spread: the largest admitted candidate less the smallest (R107). -/
def spreadWidth (w : List WindowSlot) (margin : Nat) : Nat :=
  let limit := (bestScored w).2 + margin
  let admitted := (scores w).filter fun x => decide (x.2 ≤ limit)
  (admitted.getLastD (0, 0)).1 - (admitted.headD (0, 0)).1

/-- The uncertainty class of a width (R107). -/
def uncertaintyClass (width : Nat) : Nat :=
  if width ≤ 2 then 0 else if width ≤ 8 then 1 else if width ≤ 32 then 2 else 3

/-- A span of slots from the onset, cut short by the window end (R108, R110). -/
def onsetSpan (w : List WindowSlot) (len : Nat) : List WindowSlot := (w.drop (bestCandidate w)).take len

/-- The vertical fraction of a polarization span, or absent (R108). -/
def verticalFraction (span : List WindowSlot) : Option Nat :=
  if span.length < 4 || sumEnergy span = 0 then none
  else some (255 * sumVertical span / sumEnergy span)

/-- The phase by the vertical fraction and the snapshot's thresholds (R109). -/
def phaseOf (f : RefineFields) : Option Nat → Phase
  | none => .x
  | some vf => if f.pThresh ≤ vf then .p else if vf ≤ f.sThresh then .s else .x

/-- The largest of a list of numbers, 0 for none. -/
def largest (xs : List Nat) : Nat := xs.foldl max 0

/-- The peak vertical and peak horizontal energies of an amplitude span (R110). -/
def peakEnergies (span : List WindowSlot) : Nat × Nat :=
  (largest (span.map fun x => x.vertical.toNat),
   largest (span.map fun x => x.energy.toNat - x.vertical.toNat))

/-- The refined record's kind part (R111, R112). -/
def refinedPart (r : Request) (w : List WindowSlot) : OnsetPart where
  band := r.band
  episode := r.episode
  stack := r.stack
  phase := phaseOf r.fields (verticalFraction (onsetSpan w r.fields.polLen))
  uncertainty := uncertaintyClass (spreadWidth w r.fields.margin)
  coarse := false
  expired := false
  shed := false
  truncated := r.truncated
  gap := w.any WindowSlot.gap
  damaged := w.any WindowSlot.damaged
  clipped := w.any WindowSlot.clipped
  ratio := r.ratio
  generation := r.generation
  timing := r.timing
  verticalFraction := verticalFraction (onsetSpan w r.fields.polLen)
  peaks := some (peakEnergies (onsetSpan w r.fields.ampLen))

/-- The onset, ws + k*: the key of a refined record (R106, R112). -/
def refinedKey (r : Request) (w : List WindowSlot) : Index := addSlots r.ws (bestCandidate w)

/-- A coarse record's kind part; it is SHED or else EXPIRED (R113). -/
def coarsePart (r : Request) (shed : Bool) : OnsetPart where
  band := r.band
  episode := r.episode
  stack := r.stack
  phase := .x
  uncertainty := 3
  coarse := true
  expired := !shed
  shed := shed
  truncated := r.truncated
  gap := false
  damaged := false
  clipped := false
  ratio := r.ratio
  generation := r.generation
  timing := r.timing
  verticalFraction := none
  peaks := none

end Sys2Proof.Machine
end

