-- ==== Sys2Proof/Machine/Trigger.lean ====
section
/-! DEFINITION. One Trigger Unit: averages, tests, and the transitions of its band (chapter 5). -/

namespace Sys2Proof.Machine

/-! ### Averages and tests (R58 to R61) -/

/-- STA or LTA moved towards 256 times the band energy (R58, R59). -/
def averageStep (k x : Nat) (e : Energy) : Nat :=
  (approach k (x : Int) (256 * (e.toNat : Int))).toNat

/-- The LTA is frozen while the band is PENDING or DECLARED (R59). -/
def BandState.frozen : BandState → Bool
  | .pending | .declared => true
  | .off | .warming | .idle | .cooldown => false

/-- The band's floor in 1/256 energy unit (R60). -/
def TriggerUnit.floor (u : TriggerUnit) : Nat := 256 * u.profile.ltaFloor

/-- The LTA in use: the larger of LTA, or the frozen LTA in its place, and the floor (R60). -/
def TriggerUnit.ltaInUse (u : TriggerUnit) : Nat := max (u.frozenLta.getD u.lta) u.floor

/-- The minimum in use for a stacked test on a given minimum (R60). -/
def TriggerUnit.minInUse (u : TriggerUnit) (m : Nat) : Nat := max m u.floor

/-- The ON test (R61). -/
def TriggerUnit.onTest (u : TriggerUnit) : Bool := decide (u.profile.on * u.ltaInUse ≤ 16 * u.sta)

/-- The OFF test (R61). -/
def TriggerUnit.offTest (u : TriggerUnit) : Bool := decide (16 * u.sta < u.profile.off * u.ltaInUse)

/-- The stacked test on a given minimum (R61). -/
def TriggerUnit.stackedTest (u : TriggerUnit) (m : Nat) : Bool :=
  decide (u.profile.jump * u.minInUse m ≤ 16 * u.sta)

/-- The minimum a running stacked confirmation is tested against (R60, R74). -/
def TriggerUnit.confirmMin (u : TriggerUnit) : Nat := u.heldMin.getD u.staMin

/-- A declaration ratio in sixteenths, at most 255 (R79). -/
def ratioOf (sta inUse : Nat) : Nat := min 255 (16 * sta / inUse)

/-! ### The part of a slot write that every state shares -/

/-- STA, and LTA unless it is frozen, updated from the slot's energy (R58, R59, R62). -/
def TriggerUnit.average (u : TriggerUnit) (e : Energy) : TriggerUnit :=
  if u.state = .off then u
  else
    { u with
      sta := averageStep u.profile.staShift u.sta e
      lta := if u.state.frozen then u.lta else averageStep u.profile.ltaShift u.lta e }

/-- The counts of a slot write that carries CAL or the gap-run event, or neither (R64, R67, R69, R75). -/
def TriggerUnit.tally (u : TriggerUnit) (cal gapRun : Bool) : TriggerUnit :=
  match u.state with
  | .off => u
  | .idle => u
  | .warming => { u with warmCount := if cal || gapRun then 0 else min (u.warmCount + 1) Config.countTop }
  | .pending => { u with confirmCount := u.confirmCount + 1 }
  | .declared =>
    { u with
      staMin := min u.staMin u.sta
      stackCount := if u.tOn2.isSome then u.stackCount + 1 else u.stackCount }
  | .cooldown =>
    if gapRun then u
    else { u with deadCount := min (u.deadCount + 1) Config.countTop, rewarm := u.rewarm || cal }

/-- A unit's averages and counts at a slot write, before its tests. -/
def TriggerUnit.tick (u : TriggerUnit) (e : Energy) (cal gapRun : Bool) : TriggerUnit :=
  (u.average e).tally cal gapRun

/-! ### What a unit does at a slot write -/

/-- What the first case that holds makes the unit do, once its averages and counts stand updated. -/
inductive UnitDue where
  | nothing
  /-- The write carries the gap-run event and the band is not OFF (R64, R65, R68, R72, R75). -/
  | gapRun
  /-- The warm count has reached warm_len (R64). -/
  | warm
  /-- A CAL slot in IDLE (R65). -/
  | calIdle
  /-- IDLE, the re-warm flag set, the first slot without CAL (R65). -/
  | rewarm
  /-- The ON test is true in IDLE (R66). -/
  | trigger
  /-- A CAL slot in PENDING (R68). -/
  | calPending
  /-- The confirming slot (R67). -/
  | primary
  /-- A CAL slot in DECLARED (R71). -/
  | calDeclared
  /-- The OFF test is true (R70). -/
  | fell
  /-- The episode has reached max_dur (R70). -/
  | maxDur
  /-- A stacked confirmation is decided (R74). -/
  | stacked
  /-- A stacked confirmation begins (R73). -/
  | stackBegin
  /-- The dead count has reached dead_len and the band can leave COOLDOWN (R75). -/
  | dead
deriving DecidableEq, Repr

/-- The dues that are rows of the opcode table of their own; the others are taken within the command that wrote
the slot (95_what_each_step_holds.md). -/
def UnitDue.isRow : UnitDue → Bool
  | .gapRun | .warm | .primary | .maxDur | .stacked | .dead => true
  | .nothing | .calIdle | .rewarm | .trigger | .calPending | .calDeclared | .fell | .stackBegin => false

/-- The first case that holds at the slot write of `n` (R64, R65, R67 to R69, R75). -/
def TriggerUnit.due (u : TriggerUnit) (n : Index) (cal gapRun : Bool) : UnitDue :=
  match u.state with
  | .off => .nothing
  | .warming =>
    if gapRun then .gapRun
    else if !cal && decide (u.profile.warmLen ≤ u.warmCount) then .warm
    else .nothing
  | .idle =>
    if gapRun then .gapRun
    else if cal then .calIdle
    else if u.rewarm then .rewarm
    else if u.onTest then .trigger
    else .nothing
  | .pending =>
    if gapRun then .gapRun
    else if cal then .calPending
    else if u.confirmCount = u.profile.confirmLen then .primary
    else .nothing
  | .declared =>
    if gapRun then .gapRun
    else if cal then .calDeclared
    else if u.offTest then .fell
    else if decide (u.profile.maxDur ≤ distance (u.tOn.getD n) n) then .maxDur
    else if u.tOn2.isSome && decide (u.stackCount = u.profile.confirmLen) then .stacked
    else if u.tOn2.isNone && decide (u.stack < 3) && u.stackedTest u.staMin then .stackBegin
    else .nothing
  | .cooldown =>
    if gapRun then .gapRun
    else if decide (u.profile.deadLen ≤ u.deadCount) && !(u.rewarm && cal) then .dead
    else .nothing

/-! ### Transitions -/

/-- The band enters WARMING with its values kept (R63). -/
def TriggerUnit.enterWarming (u : TriggerUnit) : TriggerUnit :=
  { u with state := .warming, warmCount := 0, rewarm := false }

/-- The band leaves PENDING or DECLARED: LTA runs again from the frozen value, and the trigger slots and the held
minimum cease to hold values (R59, R68, R69, R77). -/
def TriggerUnit.unfreeze (u : TriggerUnit) : TriggerUnit :=
  { u with
    lta := u.frozenLta.getD u.lta
    frozenLta := none
    heldMin := none
    tOn := none
    tOn2 := none }

/-- Two profiles with the same four shifts (R82). -/
def sameShifts (p q : Profile) : Bool :=
  p.fastShift == q.fastShift && p.slowShift == q.slowShift
    && p.staShift == q.staShift && p.ltaShift == q.ltaShift

/-- A profile is applied to a band in OFF, WARMING, IDLE or COOLDOWN (R82, R84). -/
def TriggerUnit.applyProfile (u : TriggerUnit) (g : Staged) : TriggerUnit :=
  let v := { u with profile := g.profile, generation := g.generation, staged := none }
  if u.state = .off || sameShifts u.profile g.profile then v else v.enterWarming

/-- A staged profile is applied once the band has left PENDING or DECLARED, or at STOP (R83, R86). -/
def TriggerUnit.applyStaged (u : TriggerUnit) : TriggerUnit :=
  match u.staged with
  | none => u
  | some g => u.applyProfile g

/-- An accepted profile is applied at once, or staged while the band is PENDING or DECLARED (R82, R83). -/
def TriggerUnit.accept (u : TriggerUnit) (g : Staged) : TriggerUnit :=
  if u.state.frozen then { u with staged := some g } else u.applyProfile g

/-- The ON test of the confirming slot has held: the band declares (R67). -/
def TriggerUnit.declare (u : TriggerUnit) : TriggerUnit :=
  { u with
    state := .declared
    episode := u.episode + 1
    stack := 0
    staMin := u.sta
    heldMin := none
    tOn2 := none }

/-- A PENDING band returns to IDLE (R68). -/
def TriggerUnit.abandon (u : TriggerUnit) (rewarm : Bool) : TriggerUnit :=
  { u.unfreeze with state := .idle, rewarm := rewarm }.applyStaged

/-- The band goes from IDLE to PENDING at the slot write of `n` (R66). -/
def TriggerUnit.trigger (u : TriggerUnit) (n : Index) : TriggerUnit :=
  { u with state := .pending, tOn := some n, frozenLta := some u.lta, confirmCount := 0 }

/-- A stacked confirmation begins at the slot write of `n` (R73). -/
def TriggerUnit.beginStack (u : TriggerUnit) (n : Index) : TriggerUnit :=
  { u with tOn2 := some n, heldMin := some u.staMin, stackCount := 0 }

/-- A stacked confirmation ends without a declaration (R74). -/
def TriggerUnit.endStack (u : TriggerUnit) : TriggerUnit :=
  { u with tOn2 := none, heldMin := none }

/-- A stacked confirmation is true: the band makes a stacked declaration (R74). -/
def TriggerUnit.declareStacked (u : TriggerUnit) : TriggerUnit :=
  { u with stack := u.stack + 1, staMin := u.sta, tOn2 := none, heldMin := none }

/-- An episode ends in COOLDOWN (R70, R71), before the staged profile is applied. -/
def TriggerUnit.toCooldown (u : TriggerUnit) (rewarm : Bool) : TriggerUnit :=
  { u.unfreeze with state := .cooldown, deadCount := 0, rewarm := rewarm }

/-- The kind part of the CLOSE record at an episode end at the slot write of `n` (R77). -/
def TriggerUnit.closePart (u : TriggerUnit) (b : Band) (n : Index) (c : CloseCause) : ClosePart where
  band := b
  episode := u.episode
  duration := distance (u.tOn.getD n) n
  stacked := u.stack
  cause := c

/-- START takes a band from OFF to WARMING (R85). -/
def TriggerUnit.start (u : TriggerUnit) : TriggerUnit :=
  { u with
    state := .warming
    sta := 0
    lta := 0
    warmCount := 0
    rewarm := false
    frozenLta := none
    tOn := none
    tOn2 := none }

/-- STOP takes a band to OFF and applies its staged profile there (R86). -/
def TriggerUnit.stop (u : TriggerUnit) : TriggerUnit :=
  { u with state := .off }.applyStaged

end Sys2Proof.Machine
end

