-- ==== Sys2Proof/Machine/Ops.lean ====
section
/-! DEFINITION. The slot write and what every block does at it, the timers, and the read arbiter: the operations the
commands share. -/

namespace Sys2Proof.Machine

/-! ### The ring (R35 to R37) -/

/-- A slot written at its position; the positions listed stay in rising order (R35). -/
def writeCell (pos : Nat) (v : Slot) : List (Nat × Slot) → List (Nat × Slot)
  | [] => [(pos, v)]
  | (q, w) :: more =>
    if pos < q then (pos, v) :: (q, w) :: more
    else if pos = q then (pos, v) :: more
    else (q, w) :: writeCell pos v more

/-- The slot at a position, if one was written there. -/
def readCell (pos : Nat) (cells : List (Nat × Slot)) : Option Slot :=
  (cells.find? fun c => c.1 == pos).map Prod.snd

/-- The position of an index (R35). -/
def ringPosition (i : Index) : Nat := i.toNat % Config.ringDepth

/-- The ring after the slot write of an index accepted at an instant: the cell, the newest index and instant, the
written count, and both interval counts at 0 (R35, R38). -/
def Ring.write (g : Ring) (i : Index) (accepted : Nat) (v : Slot) : Ring :=
  { g with
    cells := writeCell (ringPosition i) v g.cells
    newest := some { index := i, accepted := accepted }
    written := min (g.written + 1) Config.ringDepth
    laneReads := 0
    fetchReads := 0 }

/-- The ring holds an index (R36). -/
def Ring.holds (g : Ring) (i : Index) : Bool :=
  match g.newest with
  | none => false
  | some n => decide (distance i n.index < g.written)

/-- The oldest held index, when the ring holds any (R36). -/
def Ring.oldest (g : Ring) : Option Index :=
  g.newest.map fun n => addSlots (subSlots n.index g.written) 1

/-- A read of an index: its slot when the ring holds it, else the overwritten result (R37). -/
def Ring.read (g : Ring) (i : Index) : ReadResult where
  index := i
  slot := if g.holds i then readCell (ringPosition i) g.cells else none

/-! ### Small updates -/

def State.setUnit (s : State) (b : Band) (u : TriggerUnit) : State :=
  { s with units := s.units.set b u }

def State.setLane (s : State) (l : LaneId) (v : Lane) : State :=
  { s with refiner := { s.refiner with lanes := s.refiner.lanes.set l v } }

def State.setQueue (s : State) (q : List Request) : State :=
  { s with refiner := { s.refiner with queue := q } }

def State.setOwed (s : State) (o : Owed) : State := { s with owed := o }

def State.setTmu (s : State) (t : TimeMarkUnit) : State := { s with tmu := t }

def State.setIntake (s : State) (f : FrameIntake) : State := { s with intake := f }

def State.setNow (s : State) (t : Nat) : State := { s with clock := { s.clock with now := t } }

/-- The frame interval at the fps in force (R10). -/
def State.interval (s : State) : Nat := frameInterval s.settings.station.fps

/-- The newest index, when one exists (R35). -/
def State.newestIndex (s : State) : Option Index := s.ring.newest.map Newest.index

/-- The newest index where an operation runs only once one exists; 0 otherwise (never used). -/
def State.newestOr (s : State) : Index := (s.ring.newest.map Newest.index).getD 0

/-- The slot of the newest index, as a Trigger Unit meets it (R56). -/
def State.newestSlot (s : State) : Option Slot := (s.ring.read s.newestOr).slot

/-- Whether the newest slot carries CAL. -/
def State.newestCal (s : State) : Bool :=
  match s.newestSlot with
  | none => false
  | some v => v.reading.cal

/-! ### Launches, hand-overs and completions (R89 to R92, R95) -/

/-- The lowest-numbered FREE lane (R92). -/
def Refiner.freeLane (r : Refiner) : Option LaneId :=
  [LaneId.l0, .l1, .l2, .l3].find? fun l => decide (r.lanes.get l = Lane.free)

/-- The state of a lane into which a request is launched at newest index `n` (R92). -/
def launchedLane (r : Request) (n : Index) : Lane :=
  if earlier n r.windowEnd then .waiting r else .scanning r []

/-- The deadline of a request has been written at newest index `n`: it is never launched (R92). -/
def deadlineWritten (n : Index) (r : Request) : Bool := notLater r.deadline n

/-- The launch examination, made while the core is RUNNING: it launches the head again and again until the queue is
empty, no lane is FREE, or the governor withholds; `fuel` is the most launches looked for. A head whose deadline has
been written stops it there, since the head alone is launched (R92; DEDUCED, notes/assumptions/19.md). -/
def launchLoop : Nat → State → State
  | 0, s => s
  | fuel + 1, s =>
    match s.refiner.queue, s.refiner.freeLane, s.newestIndex with
    | head :: more, some l, some n =>
      if governorPermits s.settings.station s.refiner.history n && !deadlineWritten n head then
        launchLoop fuel
          { s with refiner :=
            { queue := more
              lanes := s.refiner.lanes.set l (launchedLane head n)
              history := recordLaunch s.settings.station.launches s.refiner.history n } }
      else s
    | _, _, _ => s

/-- The launch examination (R92). -/
def launchExamination (s : State) : State :=
  if s.settings.core = .running then launchLoop s.refiner.queue.length s else s

/-- Whether the launch examination would launch the head now (R92). -/
def State.launchReady (s : State) : Bool :=
  match s.refiner.queue, s.refiner.freeLane, s.newestIndex with
  | head :: _, some _, some n =>
    decide (s.settings.core = .running) && governorPermits s.settings.station s.refiner.history n
      && !deadlineWritten n head
  | _, _, _ => false

/-- A coarse record is made for a request and handed to the list (R113). -/
def handCoarse (shed : Bool) (r : Request) (s : State) : State :=
  insertRecord r.trigger (.onset (coarsePart r shed)) s

/-- A request handed over is offered to the queue: it enters, with the launch examination, or is shed (R89, R90). -/
def offerRequest (r : Request) (s : State) : State :=
  if s.refiner.queue.length < Config.queueDepth then
    launchExamination (s.setQueue (enqueue r s.refiner.queue))
  else handCoarse true r s

/-- A truncation reaches the queue and the lanes (R101 to R104). -/
def truncateBand (b : Band) (t2 : Index) (s : State) : State :=
  { s with refiner := { s.refiner with
      queue := s.refiner.queue.map (Request.truncate b t2)
      lanes :=
        { l0 := s.refiner.lanes.l0.truncate b t2
          l1 := s.refiner.lanes.l1.truncate b t2
          l2 := s.refiner.lanes.l2.truncate b t2
          l3 := s.refiner.lanes.l3.truncate b t2 } } }

/-- A lane's resolution completes: the refined record is handed over, the lane becomes FREE, and the launch
examination follows. In any other lane state nothing happens (R95). -/
def completeLane (l : LaneId) (s : State) : State :=
  match s.refiner.lanes.get l with
  | .resolving r w _ =>
    launchExamination
      (insertRecord (refinedKey r w) (.onset (refinedPart r w)) (s.setLane l .free))
  | .free | .waiting _ | .scanning _ _ => s

/-! ### The refiner's handling of a slot write (R96) -/

/-- A request expires at the slot write of its deadline (R96). -/
def expiresAt (n : Index) (r : Request) : Bool := decide (r.deadline = n)

/-- A request expires in a lane: the lane becomes FREE and a coarse EXPIRED record is made (R98). -/
def expireLane (n : Index) (l : LaneId) (s : State) : State :=
  match (s.refiner.lanes.get l).request with
  | some r => if expiresAt n r then handCoarse false r (s.setLane l .free) else s
  | none => s

/-- The queued requests that expire leave the queue, each with a coarse EXPIRED record, in queue order (R97). -/
def expireQueue (n : Index) (s : State) : State :=
  (s.refiner.queue.filter (expiresAt n)).foldl (fun t r => handCoarse false r t)
    (s.setQueue (s.refiner.queue.filter fun r => !expiresAt n r))

/-- Step 1: lanes in lane-number order, then the queue in queue order (R96). -/
def expiryStep (n : Index) (s : State) : State :=
  expireQueue n (expireLane n .l3 (expireLane n .l2 (expireLane n .l1 (expireLane n .l0 s))))

/-- A WAITING lane whose window end is the index written enters SCANNING (R93). -/
def Lane.startScan (n : Index) : Lane → Lane
  | .waiting r => if r.windowEnd = n then .scanning r [] else .waiting r
  | .free => .free
  | .scanning r w => .scanning r w
  | .resolving r w k => .resolving r w k

/-- Step 2 (R96). -/
def scanStartStep (n : Index) (s : State) : State :=
  { s with refiner := { s.refiner with lanes :=
      { l0 := s.refiner.lanes.l0.startScan n
        l1 := s.refiner.lanes.l1.startScan n
        l2 := s.refiner.lanes.l2.startScan n
        l3 := s.refiner.lanes.l3.startScan n } } }

/-- The expiry step taken, if the refiner still owes it. -/
def refinerExpiry (s : State) : State :=
  match s.owed.refiner with
  | .expiry => (expiryStep s.newestOr s).setOwed { s.owed with refiner := .scanStart }
  | .scanStart | .launch | .done => s

/-- The steps up to the scan start taken, as far as the refiner still owes them. -/
def refinerScanStart (s0 : State) : State :=
  let s := refinerExpiry s0
  match s.owed.refiner with
  | .scanStart => (scanStartStep s.newestOr s).setOwed { s.owed with refiner := .launch }
  | .expiry | .launch | .done => s

/-- All three steps taken, as far as the refiner still owes them (R96). -/
def refinerFinish (s0 : State) : State :=
  let s := refinerScanStart s0
  match s.owed.refiner with
  | .launch => (launchExamination s).setOwed { s.owed with refiner := .done }
  | .expiry | .scanStart | .done => s

/-! ### The list's handling of a slot write (R125) -/

/-- Steps 1 and 2 taken, if the list still owes them. -/
def listRetire (s : State) : State :=
  match s.owed.list with
  | .retire => (retireRecords s.newestOr (takeUp s.newestOr s)).setOwed { s.owed with list := .release }
  | .release | .done => s

/-- All four steps taken, as far as the list still owes them. -/
def listFinish (s0 : State) : State :=
  let s := listRetire s0
  match s.owed.list with
  | .release => (releaseRecords s.newestOr s).setOwed { s.owed with list := .done }
  | .retire | .done => s

/-! ### The Time Mark Unit's handling of a slot write (R27, R28) -/

/-- The watch length at a frame rate (R27). -/
def watchLength (fps : Nat) : Nat := 3 * fps / 2

/-- The holdover count at which FREE is entered (R28). -/
def holdoverTop (t : Station) : Nat := t.holdoverLimit * t.fps + 1

/-- In LOCKED, the slot distance from the latest mark has reached the watch length (R27, R29). -/
def State.watchDue (s : State) : Bool :=
  match s.tmu.timing, s.tmu.latest with
  | .locked, some m => decide (watchLength s.settings.station.fps ≤ distance m.index s.newestOr)
  | _, _ => false

/-- In HOLDOVER, the holdover count has reached its limit (R28, R29). -/
def State.holdoverDue (s : State) : Bool :=
  decide (s.tmu.timing = .holdover) && decide (holdoverTop s.settings.station ≤ s.tmu.holdover)

/-- A change of timing state: the TIMING record with both entries as they stand, and the notice (R30). -/
def changeTiming (t : TimingState) (count : Nat) (s : State) : State :=
  raiseBoth .timing
    (insertRecord s.newestOr
      (.timing { timing := t, latest := s.tmu.latest, previous := s.tmu.previous })
      (s.setTmu { s.tmu with timing := t, holdover := count }))

/-- The watch or the holdover limit acts, if the unit still owes it. -/
def timingFinish (s : State) : State :=
  if s.owed.timing then
    if s.watchDue then (changeTiming .holdover 0 s).setOwed { s.owed with timing := false }
    else if s.holdoverDue then
      (changeTiming .free s.tmu.holdover s).setOwed { s.owed with timing := false }
    else s.setOwed { s.owed with timing := false }
  else s

/-! ### The Trigger Units' handling of a slot write -/

/-- A unit no longer owes its handling of the newest slot write. -/
def Owed.unitDone (o : Owed) (b : Band) : Owed := { o with units := o.units.set b false }

/-- What a unit's next case is at the newest slot write. -/
def State.unitDue (s : State) (b : Band) : UnitDue :=
  (s.units.get b).due s.newestOr s.newestCal s.owed.gapRun

/-- The CLOSE record of an episode end is handed to the list (R77). -/
def handClose (b : Band) (u : TriggerUnit) (c : CloseCause) (s : State) : State :=
  insertRecord s.newestOr (.close (u.closePart b s.newestOr c)) s

/-- The gap-run event at a band that is not OFF: an episode ends with cause GAP, and the band enters WARMING with its
values kept; a staged profile is applied on leaving PENDING or DECLARED (R63, R68, R72, R83). -/
def unitGapRun (b : Band) (s : State) : State :=
  let u := s.units.get b
  match u.state with
  | .off => s
  | .declared => handClose b u .gap (s.setUnit b u.unfreeze.enterWarming.applyStaged)
  | .pending => s.setUnit b u.unfreeze.enterWarming.applyStaged
  | .warming | .idle | .cooldown => s.setUnit b u.enterWarming

/-- The warm count has reached warm_len (R64). -/
def unitWarm (b : Band) (s : State) : State :=
  s.setUnit b { s.units.get b with state := .idle }

/-- The confirming slot of a PENDING band (R67, R68). -/
def unitPrimary (b : Band) (s : State) : State :=
  let u := s.units.get b
  if u.onTest then
    offerRequest
      (makeRequest b u.declare 0 (u.tOn.getD s.newestOr) (ratioOf u.sta u.ltaInUse)
        s.settings.station.holdback s.tmu.timing)
      (s.setUnit b u.declare)
  else s.setUnit b (u.abandon u.rewarm)

/-- A stacked confirmation is decided: on a true test the truncation, then the request (R74, R80). -/
def unitStacked (b : Band) (s : State) : State :=
  let u := s.units.get b
  let t2 := u.tOn2.getD s.newestOr
  if u.stackedTest u.confirmMin then
    offerRequest
      (makeRequest b u.declareStacked u.declareStacked.stack t2 (ratioOf u.sta (u.minInUse u.confirmMin))
        s.settings.station.holdback s.tmu.timing)
      (truncateBand b t2 (s.setUnit b u.declareStacked))
  else s.setUnit b u.endStack

/-- An episode ends in COOLDOWN with a CLOSE record, and a staged profile is applied (R70, R71, R83). -/
def unitEnd (b : Band) (c : CloseCause) (rewarm : Bool) (s : State) : State :=
  let u := s.units.get b
  handClose b u c (s.setUnit b (u.toCooldown rewarm).applyStaged)

/-- The dead count has reached dead_len: IDLE, or WARMING after CAL (R75). -/
def unitDead (b : Band) (s : State) : State :=
  let u := s.units.get b
  s.setUnit b (if u.rewarm then u.enterWarming else { u with state := .idle })

/-- A unit does what its first case says. -/
def unitAct (d : UnitDue) (b : Band) (s : State) : State :=
  let u := s.units.get b
  match d with
  | .nothing => s
  | .gapRun => unitGapRun b s
  | .warm => unitWarm b s
  | .calIdle => s.setUnit b { u with rewarm := true }
  | .rewarm => s.setUnit b u.enterWarming
  | .trigger => s.setUnit b (u.trigger s.newestOr)
  | .calPending => s.setUnit b (u.abandon true)
  | .primary => unitPrimary b s
  | .calDeclared => unitEnd b .cal true s
  | .fell => unitEnd b .fell false s
  | .maxDur => unitEnd b .capped false s
  | .stacked => unitStacked b s
  | .stackBegin => s.setUnit b (u.beginStack s.newestOr)
  | .dead => unitDead b s

/-- A unit's handling of the newest slot write taken, if it still owes it. -/
def unitFinish (b : Band) (s : State) : State :=
  if s.owed.units.get b then
    let t := unitAct (s.unitDue b) b s
    t.setOwed (t.owed.unitDone b)
  else s

/-- A unit's handling taken within the command that wrote the slot, unless it is a row of its own. -/
def unitPlain (b : Band) (s : State) : State :=
  if (s.unitDue b).isRow then s else unitFinish b s

/-! ### Settling a slot write -/

/-- A handling that has begun at the refiner or at the list is one event and is completed before another begins
(R96, R125). -/
def finishBegun (s0 : State) : State :=
  let s := match s0.owed.refiner with
    | .scanStart | .launch => refinerFinish s0
    | .expiry | .done => s0
  match s.owed.list with
  | .release => listFinish s
  | .retire | .done => s

/-- Everything still owed to the newest slot write, in the default order: what has begun, then the Trigger Units, the
refiner, the list and the Time Mark Unit. -/
def settleOwed (s : State) : State :=
  let t := timingFinish (listFinish (refinerFinish
    (unitFinish .b2 (unitFinish .b1 (unitFinish .b0 (finishBegun s))))))
  t.setOwed Owed.nothing

/-! ### The slot write (R34, R35) -/

/-- The refiner has nothing to do at the newest slot write. -/
def State.refinerIdle (s : State) : Bool :=
  let n := s.newestOr
  let waits (l : Lane) : Bool := match l with
    | .waiting r => decide (r.windowEnd = n)
    | .free | .scanning _ _ | .resolving _ _ _ => false
  let expires (l : Lane) : Bool := match l.request with
    | some r => expiresAt n r
    | none => false
  let ls := s.refiner.lanes
  !(waits ls.l0 || waits ls.l1 || waits ls.l2 || waits ls.l3)
    && !(expires ls.l0 || expires ls.l1 || expires ls.l2 || expires ls.l3)
    && !s.refiner.queue.any (expiresAt n) && !s.launchReady

/-- The list has nothing to retire and nothing to release at the newest slot write. -/
def State.listIdle (s : State) : Bool :=
  let n := s.newestOr
  !s.list.records.any (ageLimit n) && !s.list.records.any (releaseDue s.settings.station.holdback n)

/-- What is owed to a new slot write, before any of it is taken. -/
def Owed.all (gapRun : Bool) : Owed where
  units := Bands.all true
  gapRun := gapRun
  refiner := .expiry
  list := .retire
  timing := true

/-- The handlings that are no row of the table are taken within the command that wrote the slot: each unit's plain
case, and those of the refiner, the list and the Time Mark Unit where nothing is due. -/
def takePlain (s0 : State) : State :=
  let s := unitPlain .b2 (unitPlain .b1 (unitPlain .b0 s0))
  let s := if s.refinerIdle then refinerFinish s else s
  let s := if s.listIdle then listFinish s else s
  if s.watchDue || s.holdoverDue then s else timingFinish s

/-- A lane whose resolution began four slot writes ago completes before another slot is written (R95). -/
def completeOverdueLane (l : LaneId) (s : State) : State :=
  match s.refiner.lanes.get l with
  | .resolving _ _ k => if Config.resolutionWrites ≤ k then completeLane l s else s
  | .free | .waiting _ | .scanning _ _ => s

def completeOverdue (s : State) : State :=
  completeOverdueLane .l3 (completeOverdueLane .l2 (completeOverdueLane .l1 (completeOverdueLane .l0 s)))

/-- A resolution counts a slot write (R95). -/
def Lane.countWrite : Lane → Lane
  | .resolving r w k => .resolving r w (k + 1)
  | .free => .free
  | .waiting r => .waiting r
  | .scanning r w => .scanning r w

/-- The kind of slot Frame Intake forms (R11, R12). -/
inductive SlotKind where
  | good | gap | damaged
deriving DecidableEq, Repr

/-- The gap-run count after a slot of a kind (R21). -/
def gapRunAfter (k : SlotKind) (count : Nat) : Nat :=
  match k with
  | .good => 0
  | .gap => min (count + 1) Config.countTop
  | .damaged => count

/-- A GAP slot's write carries the gap-run event when it makes the count gap_limit + 1 (R21). Equality alone decides: a
run reported under an old gap_limit is reported again where gap_limit was raised meanwhile and the run then reaches the new
gap_limit + 1 (DESIGN CHOICE, notes/assumptions/23.md). -/
def gapRunEvent (k : SlotKind) (count limit : Nat) : Bool :=
  decide (k = .gap) && decide (gapRunAfter k count = limit + 1)

/-- Each unit's averages and counts at a slot write (R58, R59). -/
def tickUnits (v : Slot) (gapRun : Bool) (us : Bands TriggerUnit) : Bands TriggerUnit where
  b0 := us.b0.tick v.energy.b0 v.reading.cal gapRun
  b1 := us.b1.tick v.energy.b1 v.reading.cal gapRun
  b2 := us.b2.tick v.energy.b2 v.reading.cal gapRun

/-- The write itself of one slot, with what every block counts at it, on a state that owes nothing: the filter step,
the ring, the governor's drop, the units' averages and counts and the holdover count. -/
def writeCore (k : SlotKind) (r : Reading) (s : State) : State :=
  let i := s.intake.nextIndex
  let filters := filterStep s.settings.core (fun b => (s.units.get b).profile) r s.filters
  let v := completeSlot s.settings.core filters r (decide (k = .damaged)) (decide (k = .gap))
  let event := gapRunEvent k s.intake.gapRun s.settings.station.gapLimit
  { s with
    intake := { s.intake with nextIndex := i + 1, gapRun := gapRunAfter k s.intake.gapRun }
    filters := filters
    ring := s.ring.write i s.clock.now v
    units := tickUnits v event s.units
    refiner :=
      { s.refiner with
        history := governorDrop s.settings.station s.refiner.history i
        lanes :=
          { l0 := s.refiner.lanes.l0.countWrite
            l1 := s.refiner.lanes.l1.countWrite
            l2 := s.refiner.lanes.l2.countWrite
            l3 := s.refiner.lanes.l3.countWrite } }
    tmu := { s.tmu with
      holdover := if s.tmu.timing = .holdover then s.tmu.holdover + 1 else s.tmu.holdover }
    clock := { s.clock with grantFrom := max s.clock.grantFrom (s.clock.now + 1) }
    owed := Owed.all event }

/-- One slot-write event: what an earlier write is owed is settled, overdue resolutions complete, the slot is written,
and the handlings that are no row of their own are taken (R13, R35). -/
def writeSlot (k : SlotKind) (r : Reading) (s : State) : State :=
  takePlain (writeCore k r (completeOverdue (settleOwed s)))

/-- The last good sample that a repeated slot copies; one always exists when a slot repeats it (R12). -/
def State.lastReading (s : State) : Reading :=
  s.intake.lastGood.getD
    { z := 0, n := 0, e := 0, clipZ := false, clipN := false, clipE := false, cal := false }

/-- A GAP slot repeating the last good sample (R12). -/
def writeGap (s : State) : State := writeSlot .gap s.lastReading s

/-- The slot of a good frame, which replaces the last good sample (R11). -/
def writeGood (r : Reading) (s : State) : State :=
  writeSlot .good r (s.setIntake { s.intake with lastGood := some r })

/-- How many slots of a judged frame are still to be written. -/
def State.slotsInHand (s : State) : Nat :=
  match s.intake.inHand with
  | none => 0
  | some h => h.gaps + 1

/-- The next slot of the frame in hand: a gap-fill slot, or the frame's own after the last of them (R13, R15). -/
def writeHeld (s : State) : State :=
  match s.intake.inHand with
  | none => s
  | some { gaps := 0, reading := r } => writeGood r (s.setIntake { s.intake with inHand := none })
  | some { gaps := n + 1, reading := r } =>
    writeGap (s.setIntake { s.intake with inHand := some { gaps := n, reading := r } })

/-- Slots of the frame in hand, in ascending index order, each a slot write of its own (R13). -/
def writeHeldSlots : Nat → State → State
  | 0, s => s
  | n + 1, s => writeHeldSlots n (writeHeld s)

/-- The frame in hand is written out. -/
def finishFrame (s : State) : State := writeHeldSlots s.slotsInHand s

/-! ### The link state machine (section 1.5) -/

/-- An INTAKE record keyed at the newest slot, and the notice on both ports (R19). -/
def intakeRecord (t : IntakeType) (s : State) : State :=
  raiseBoth .intake (insertRecord s.newestOr (.intake t) s)

/-- The link enters LOST: one GAP slot at once, the gap-slot timer started, the BEGIN record (R17, R19). The slot's
acceptance instant is the present one: the link timer's expiry (R10), or, where a divider change is the cause (R20),
for which R10 gives no instant, the instant of SET STATION (DESIGN CHOICE, notes/assumptions/20.md). -/
def enterLost (s : State) : State :=
  let lost := s.setIntake
    { s.intake with
      link := .lost
      expected := none
      linkTimer := none
      gapSlotTimer := some (s.clock.now + s.interval) }
  intakeRecord .begins (writeGap lost)

/-- Frame Intake follows a good frame's counter and restarts the link timer (R14, R15, R18). -/
def FrameIntake.follow (f : FrameIntake) (counter : Byte) (expiry : Nat) : FrameIntake :=
  { f with
    link := .running
    expected := some (counter + 1)
    linkTimer := some expiry
    gapSlotTimer := none }

/-- A good frame at the link state machine. In RUNNING its gap-fill slots and its own slot are in hand after it, each
to be written as a slot write of its own at the judgement (R13 to R15, R18). -/
def goodFrame (g : GoodFrame) (s : State) : State :=
  let expiry := s.clock.now + 4 * s.interval
  match s.intake.link with
  | .searching => writeGood g.reading (s.setIntake (s.intake.follow g.counter expiry))
  | .running =>
    let jump := (g.counter - s.intake.expected.getD g.counter + 1).toNat
    if jump = 0 then s
    else
      s.setIntake
        { s.intake.follow g.counter expiry with inHand := some { gaps := jump - 1, reading := g.reading } }
  | .lost =>
    intakeRecord .ends (writeGood g.reading (s.setIntake (s.intake.follow g.counter expiry)))

/-- A damaged frame at the link state machine (R14, R16, R18). -/
def damagedFrame (s : State) : State :=
  match s.intake.link with
  | .searching => s
  | .running =>
    writeSlot .damaged s.lastReading
      (s.setIntake { s.intake with expected := s.intake.expected.map (· + 1) })
  | .lost => s

/-- The frame of the bytes collected is judged, and hunting begins again (R7, R8). -/
def judge (bytes : List LinkByte) (s : State) : State :=
  let hunting := s.setIntake { s.intake with assembler := .hunting }
  match judgeFrame bytes with
  | some g => goodFrame g hunting
  | none => damagedFrame hunting

/-- The twelve bytes of the frame in assembly, when all have come (R8). -/
def Assembler.complete : Assembler → Option (List LinkByte)
  | .hunting => none
  | .assembling bytes _ => if Config.frameBytes ≤ bytes.length then some bytes else none

/-- A complete frame is judged, at the instant of its twelfth byte, after the slots of a frame before it (R8, R13). -/
def judgeComplete (s : State) : State :=
  match s.intake.assembler.complete with
  | some bytes => judge bytes (finishFrame s)
  | none => s

/-- Everything that must be taken before time passes: a complete frame, its slots, and what they are owed. -/
def settle (s : State) : State := settleOwed (finishFrame (judgeComplete s))

/-! ### Timers and time (R8, R10, R17, R18) -/

/-- The three timers of Frame Intake. -/
inductive Timer where
  | assembly | link | gapSlot
deriving DecidableEq, Repr

/-- The assembly timer's instant of expiry while it runs. -/
def Assembler.expiry : Assembler → Option Nat
  | .hunting => none
  | .assembling _ e => some e

/-- A timer's instant of expiry while it runs. -/
def State.timer (s : State) : Timer → Option Nat
  | .assembly => s.intake.assembler.expiry
  | .link => s.intake.linkTimer
  | .gapSlot => s.intake.gapSlotTimer

/-- The assembly timer expires: the frame is damaged and its bytes are dropped (R8). -/
def expireAssembly (s : State) : State :=
  damagedFrame (s.setIntake { s.intake with assembler := .hunting })

/-- The link timer expires: from RUNNING the link enters LOST (R17). -/
def expireLink (s : State) : State :=
  match s.intake.link with
  | .running => enterLost s
  | .searching | .lost => s.setIntake { s.intake with linkTimer := none }

/-- The gap-slot timer expires: in LOST it writes one GAP slot and restarts (R18). -/
def expireGapSlot (s : State) : State :=
  match s.intake.link with
  | .lost =>
    writeGap (s.setIntake { s.intake with gapSlotTimer := some (s.clock.now + s.interval) })
  | .searching | .running => s.setIntake { s.intake with gapSlotTimer := none }

def expireTimer : Timer → State → State
  | .assembly => expireAssembly
  | .link => expireLink
  | .gapSlot => expireGapSlot

/-- The earlier of two timers with their instants; the first named on a tie. -/
def soonerTimer (a b : Option (Timer × Nat)) : Option (Timer × Nat) :=
  match a, b with
  | none, y => y
  | x, none => x
  | some x, some y => if y.2 < x.2 then some y else some x

/-- The running timer that expires next; the assembly timer, then the link timer, on a tie. -/
def State.nextTimer (s : State) : Option (Timer × Nat) :=
  soonerTimer (soonerTimer ((s.timer .assembly).map (Timer.assembly, ·)) ((s.timer .link).map (Timer.link, ·)))
    ((s.timer .gapSlot).map (Timer.gapSlot, ·))

/-! ### The line and the bytes (R5 to R8) -/

/-- The periods of f_ref between two samples of the line, at sixteen times the bit rate in force (R5, R6). -/
def State.samplePeriod (s : State) : Nat := s.settings.station.linkDivider + 1

/-- The level the receiver samples. While RESET is asserted the receiver stands in its reset state, as with the line
idle (R188). -/
def State.level (s : State) : Bool := s.resetHeld || s.intake.line

/-- How many samples fall strictly before an instant. -/
def State.samplesBefore (s : State) (t : Nat) : Nat :=
  (t - s.intake.nextSample + s.settings.station.linkDivider) / s.samplePeriod

/-- Frame Intake after some samples that leave the receiver as given. -/
def State.afterSamples (s : State) (n : Nat) (rx : Receiver) : FrameIntake :=
  { s.intake with receiver := rx, nextSample := s.intake.nextSample + n * s.samplePeriod }

/-- A byte is delivered to the frame assembler, at the present instant (R7, R8). -/
def deliverByte (v : LinkByte) (s0 : State) : State :=
  let s := judgeComplete s0
  match s.intake.assembler with
  | .hunting =>
    if v.value = Config.syncByte ∧ v.fault = false then
      s.setIntake { s.intake with assembler := .assembling [] (s.clock.now + s.interval) }
    else s
  | .assembling bytes e =>
    s.setIntake { s.intake with assembler := .assembling (bytes ++ [v]) e }

/-- The line is sampled up to the sample that completes a byte, the last of `n`, at whose instant the byte is
delivered (R5). -/
def sampleByte (n : Nat) (rx : Receiver) (v : LinkByte) (s : State) : State :=
  deliverByte v ((s.setNow (max s.clock.now (s.intake.nextSample + (n - 1) * s.samplePeriod))).setIntake
    (s.afterSamples n rx))

/-- Time passes up to an instant. On the way the line is sampled at its present level, each byte is delivered at its
stop-bit sample, and the timers that expire strictly before the instant expire; each is settled before time passes on.
Of a sample and an expiry at one instant the sample comes first (DESIGN CHOICE, notes/assumptions/6.md). -/
def advanceLoop : Nat → Nat → State → State
  | 0, target, s =>
    (s.setNow (max s.clock.now target)).setIntake (s.afterSamples (s.samplesBefore target) s.intake.receiver)
  | fuel + 1, target, s =>
    let next := s.nextTimer.filter fun x => decide (x.2 < target)
    let n := s.samplesBefore ((next.map fun x => x.2 + 1).getD target)
    let run := rxRun s.level n s.intake.receiver
    match run.byte, next with
    | some v, _ => advanceLoop fuel target (settle (sampleByte (n - run.left) run.receiver v s))
    | none, some (t, d) =>
      advanceLoop fuel target
        (settle (expireTimer t ((s.setNow (max s.clock.now d)).setIntake (s.afterSamples n run.receiver))))
    | none, none => (s.setNow (max s.clock.now target)).setIntake (s.afterSamples n run.receiver)

/-- Time passes up to an instant, and what waits to be taken is taken first; an instant that is not later than the
present one changes nothing. What falls at the instant itself is left to the commands. Every timer's interval is at
least one period and a byte takes many, so no more events fall on the way than periods pass, but for those that are
under way now. -/
def advanceTo (target : Nat) (s : State) : State :=
  if s.clock.now < target then advanceLoop (target - s.clock.now + 8) target (settle s) else s

/-- A timer runs to its expiry, which is taken; nothing happens when it does not run. -/
def runTimer (t : Timer) (s0 : State) : State :=
  let s := settle s0
  match s.timer t with
  | none => s
  | some d =>
    let u := advanceTo d s
    if u.timer t = some d then expireTimer t u else u

/-- One sample of the line, at its instant; the byte it completes is delivered (R5). -/
def takeSample (s : State) : State :=
  let run := rxRun s.level 1 s.intake.receiver
  match run.byte with
  | some v => sampleByte 1 run.receiver v s
  | none =>
    (s.setNow (max s.clock.now s.intake.nextSample)).setIntake (s.afterSamples 1 run.receiver)

/-- The line takes a level for a number of samples, and stays at it (R5). -/
def takeRun (level : Bool) (n : Nat) (s0 : State) : State :=
  let s := s0.setIntake { s0.intake with line := level }
  match n with
  | 0 => s
  | m + 1 => takeSample (advanceTo (s.intake.nextSample + m * s.samplePeriod) s)

/-! ### The read arbiter (section 3.4) -/

/-- The better of two lanes that want a read: the earlier deadline, and the lower number on a tie (R41). -/
def betterLane (a b : Option (LaneId × Index)) : Option (LaneId × Index) :=
  match a, b with
  | none, y => y
  | x, none => x
  | some x, some y => if earlier y.2 x.2 then some y else some x

/-- A lane that wants a read, with its request's deadline (R39). -/
def Refiner.wanting (r : Refiner) (l : LaneId) : Option (LaneId × Index) :=
  match r.lanes.get l with
  | .scanning q w => if (Lane.scanning q w).wants then some (l, q.deadline) else none
  | .free | .waiting _ | .resolving _ _ _ => none

/-- The wanting lane that is served first (R41). -/
def Refiner.firstWanting (r : Refiner) : Option LaneId :=
  (betterLane (betterLane (betterLane (r.wanting .l0) (r.wanting .l1)) (r.wanting .l2)) (r.wanting .l3)).map
    Prod.fst

/-- A fetch engine wants a read while it is FILLING and its read count is below its count (R184). -/
def FetchEngine.wants : FetchEngine → Bool
  | .filling f => decide (f.buffer.length < f.count)
  | .idle | .ready _ => false

/-- The port whose engine is served: the only one that wants, else the one not last served, else the one whose fetch
entered FILLING first (R42). -/
def State.firstEngine (s : State) : Option Port :=
  match s.ports.a.engine.wants, s.ports.b.engine.wants with
  | false, false => none
  | true, false => some .a
  | false, true => some .b
  | true, true =>
    match s.ring.lastServed with
    | some p => some p.other
    | none => some (s.clock.fillOrder.headD .a)

/-- Whom the next grant goes to (R40). -/
inductive Grantee where
  | lane (l : LaneId)
  | engine (p : Port)
deriving DecidableEq, Repr

/-- The division of the budget: an eligible lane first, then an eligible engine (R40). -/
def State.grantee (s : State) : Option Grantee :=
  if s.ring.newest.isSome ∧ s.ring.laneReads + s.ring.fetchReads < Config.intervalBudget then
    match s.refiner.firstWanting, s.firstEngine with
    | none, none => none
    | some l, none => some (.lane l)
    | none, some p => some (.engine p)
    | some l, some p =>
      if s.ring.laneReads < Config.laneShare then some (.lane l)
      else if s.ring.fetchReads < Config.fetchShare then some (.engine p)
      else none
  else none

/-- A lane after a read of its next index: RESOLVING once its window is complete (R94, R95). -/
def Lane.afterRead (g : Ring) : Lane → Lane
  | .scanning r w =>
    let window := w ++ [windowSlot r.band (g.read (addSlots r.ws w.length))]
    if r.length ≤ window.length then .resolving r window 0 else .scanning r window
  | .free => .free
  | .waiting r => .waiting r
  | .resolving r w k => .resolving r w k

/-- A current fetch after a read of its next index (R184). -/
def Fetch.afterRead (g : Ring) (f : Fetch) : Fetch :=
  { f with buffer := f.buffer ++ [g.read (addSlots f.start f.buffer.length)] }

/-- A read granted to a fetch engine; the one that completes its fetch makes it READY and raises FETCH (R42, R184). -/
def grantEngine (p : Port) (s : State) : State :=
  match (s.ports.get p).engine with
  | .filling f =>
    let f' := f.afterRead s.ring
    let served : State :=
      { s with ring := { s.ring with fetchReads := s.ring.fetchReads + 1, lastServed := some p } }
    if f.count ≤ f'.buffer.length then
      raise .fetch p
        { (served.setPort p { s.ports.get p with engine := .ready f' }) with
          clock := { s.clock with fillOrder := s.clock.fillOrder.erase p } }
    else served.setPort p { s.ports.get p with engine := .filling f' }
  | .idle | .ready _ => s

/-- A read granted to a lane (R94). -/
def grantLane (l : LaneId) (s : State) : State :=
  { s with
    ring := { s.ring with laneReads := s.ring.laneReads + 1 }
    refiner := { s.refiner with
      lanes := s.refiner.lanes.set l ((s.refiner.lanes.get l).afterRead s.ring) } }

/-- The grant the arbiter makes now, if it makes one; the next comes at least 32 periods later (R38, R40). -/
def grantRead (s : State) : State :=
  let spaced (t : State) : State :=
    { t with clock := { t.clock with grantFrom := s.clock.now + Config.grantSpacing } }
  match s.grantee with
  | none => s
  | some (.lane l) => spaced (grantLane l s)
  | some (.engine p) => spaced (grantEngine p s)

/-! ### Core control and settings (chapter 9) -/

/-- A change of the divider restarts the receiver and the assembler, and takes a RUNNING link to LOST (R6, R20). The
spec does not say whether the last sample taken at the old rate counts towards the first falling edge at the new rate:
here it does, `receiver.last` being kept; the first sample at the new rate falls one new sample period after the change
(DESIGN CHOICE, notes/assumptions/21.md). -/
def changeDivider (s : State) : State :=
  let restarted := s.setIntake
    { s.intake with
      nextSample := s.clock.now + s.samplePeriod
      receiver := { s.intake.receiver with busy := none }
      assembler := .hunting }
  match s.intake.link with
  | .running => enterLost restarted
  | .searching | .lost => restarted

/-- START from STOPPED (R85, R168). -/
def startCore (s : State) : State :=
  raiseBoth .core
    { s with
      settings := { s.settings with core := .running }
      units := { b0 := s.units.b0.start, b1 := s.units.b1.start, b2 := s.units.b2.start } }

/-- STOP from RUNNING (R54, R86, R116, R169). -/
def stopCore (s : State) : State :=
  raiseBoth .core
    { s with
      settings := { s.settings with core := .stopped }
      units := { b0 := s.units.b0.stop, b1 := s.units.b1.stop, b2 := s.units.b2.stop }
      filters := FilterBank.reset
      refiner := { s.refiner with queue := [], lanes := Lanes.all .free } }

/-! ### Transactions (section 10.1) -/

/-- A transaction begins and the pending response is shifted out under its clocks; an earlier locked-out select has
been released, which cleared the lock-out (R172, R173, R175). -/
def openTransaction (p : Port) (clocks : Nat) (s : State) : State :=
  let i := s.ports.get p
  s.setPort p { i with lockOut := false, selected := false, dout := shiftOut i.response clocks }

/-- A select that the port disregards while RESET is asserted: it shifts out 0 (R188). -/
def disregard (p : Port) (clocks : Nat) (held : Bool) (s : State) : State :=
  s.setPort p { s.ports.get p with selected := held, dout := List.replicate clocks false }

/-- The pending response is replaced (R173). -/
def respond (p : Port) (r : Response) (s : State) : State :=
  s.setPort p { s.ports.get p with response := r }

/-- A request executed at the release of select: the pending response is shifted out, and `body` gives the state and
the response that replaces it (R172, R173, R175). Another event of the part may come before or after it, so nothing
owed is settled first, but for a handling that has begun, which is one event (R96, R125). While RESET is asserted
nothing is executed (R188). -/
def transact (p : Port) (clocks : Nat) (body : State → State × Response) (s : State) : State :=
  if s.resetHeld then disregard p clocks false s
  else
    let t := openTransaction p clocks (finishBegun s)
    respond p (body t).2 (body t).1

end Sys2Proof.Machine
end

