-- ==== Sys2Proof/Machine/LinkCommands.lean ====
section
/-! DEFINITION. The digitizer link and the time-mark line: BYTE_DELIVERED, FRAME, the three timer expiries,
TIME_MARK. -/

namespace Sys2Proof.Machine

/-- BYTE_DELIVERED: the line takes the levels of the stretch one after another, the receiver samples it at the bit
rate in force, and each byte it completes reaches the assembler at its stop-bit sample (R5, R6, R7, R8). -/
def execByteDelivered (line : Line) (s : State) : Host.Outcome State Fault Refusal :=
  .next (line.foldl (fun t x => takeRun x.1 x.2 t) s)

/-- FRAME: the frame in assembly is judged once its twelfth byte has come, and handled by the link state machine
(R8, R14, R15, R16, R18). Of the slots it then has in hand, or those of a frame judged before, all but `hold` are
written, each a slot write of its own between which other events may fall (R13, R24). -/
def execFrame (s : State) (hold : Nat := 0) : Host.Outcome State Fault Refusal :=
  let t := judgeComplete s
  .next (writeHeldSlots (t.slotsInHand - hold) t)

/-- ASSEMBLY_TIMER_EXPIRY (R8). -/
def execAssemblyTimerExpiry (s : State) : Host.Outcome State Fault Refusal := .next (runTimer .assembly s)

/-- LINK_TIMER_EXPIRY (R17). -/
def execLinkTimerExpiry (s : State) : Host.Outcome State Fault Refusal := .next (runTimer .link s)

/-- GAP_SLOT_TIMER_EXPIRY (R18). -/
def execGapSlotTimerExpiry (s : State) : Host.Outcome State Fault Refusal := .next (runTimer .gapSlot s)

/-- The phase of a mark: the time since the newest acceptance instant in 1/256 of a frame interval, at most 1023
(R24). -/
def markPhase (elapsed interval : Nat) : Nat := min 1023 (256 * elapsed / interval)

/-- A mark is regular when it lies fps − 1, fps or fps + 1 slots after the latest entry (R25). -/
def markRegular (fps : Nat) (latest : Option Anchor) (n : Index) : Bool :=
  match latest with
  | none => false
  | some m =>
    decide (distance m.index n + 1 = fps) || decide (distance m.index n = fps)
      || decide (distance m.index n = fps + 1)

/-- The timing state and holdover count after a mark has entered the table, with `two` for two regulars in a row and
`regular` for the new mark (R26). -/
def timingAfterMark (t : TimingState) (count : Nat) (regular two : Bool) : TimingState × Nat :=
  match t with
  | .none => if two then (.locked, 0) else (.none, count)
  | .locked => if regular then (.locked, count) else (.holdover, 0)
  | .holdover => if two then (.locked, 0) else (.holdover, count)
  | .free => if two then (.locked, 0) else (.free, count)

/-- A mark is latched, judged and entered, and the timing state follows (R23 to R26, R30). -/
def latchMark (n : Newest) (s : State) : State :=
  let regular := markRegular s.settings.station.fps s.tmu.latest n.index
  let mark : Anchor :=
    { index := n.index, phase := markPhase (s.clock.now - n.accepted) s.interval, regular := regular }
  let two := regular && (s.tmu.latest.map Anchor.regular).getD false
  let entered := s.setTmu { s.tmu with latest := some mark, previous := s.tmu.latest }
  let after := timingAfterMark s.tmu.timing s.tmu.holdover regular two
  if after.1 = s.tmu.timing then entered.setTmu { entered.tmu with holdover := after.2 }
  else changeTiming after.1 after.2 entered

/-- TIME_MARK, `after` periods of f_ref on: ignored while no slot has been written. A mark at the present instant may
fall among the slots of one frame, but never within a slot write (R23, R24, R30, R31): what the newest slot write still
owes comes before the mark that latches its index, a declaration with the timing state it reads and a change made by
the watch or the holdover limit among it (R27, R28, R31, R78). What the queue has not named before the mark is taken in
the default order: DESIGN CHOICE, notes/assumptions/3.md. -/
def execTimeMark (after : Nat) (s0 : State) : Host.Outcome State Fault Refusal :=
  let s := settleOwed (advanceTo (s0.clock.now + after) s0)
  match s.ring.newest with
  | none => .next s
  | some n => .next (latchMark n s)

end Sys2Proof.Machine
end

