-- ==== Sys2Proof/Machine/ReaderCommands.lean ====
section
/-! DEFINITION. The reader requests: ATTACH in its three rows, DETACH, TAKE, CONFIRM, REWIND (chapter 8). -/

namespace Sys2Proof.Machine

/-- The clock periods of a request: its first byte and the bits after it (R172). -/
def requestClocks (rest : List Bool) : Nat := 8 + rest.length

/-- ATTACH with a mode, and the backlog after it (R140 to R142). -/
def attachBody (p : Port) (fromNow : Bool) (s : State) : State × Response :=
  let t := attachReader p fromNow s
  (t, .attached (t.backlog p))

/-- ATTACH in mode ALL (R140, R142). -/
def execAttachAll (p : Port) (rest : List Bool) (s : State) : Host.Outcome State Fault Refusal :=
  .next (transact p (8 + requestClocks rest) (attachBody p false) s)

/-- ATTACH in mode FROM_NOW (R141, R142). -/
def execAttachFromNow (p : Port) (rest : List Bool) (s : State) : Host.Outcome State Fault Refusal :=
  .next (transact p (8 + requestClocks rest) (attachBody p true) s)

/-- ATTACH whose mode names neither ALL nor FROM_NOW: BAD_PARAM, or SHORT where no mode byte came (R142, R174). -/
def execAttachUnknownMode (p : Port) (rest : List Bool) (s : State) : Host.Outcome State Fault Refusal :=
  match wholeBytes rest with
  | [] => .next (transact p (requestClocks rest) (fun t => (t, .short codeAttach)) s)
  | mode :: _ =>
    if mode = modeAll ∨ mode = modeFromNow then .refused (.illFormed "ATTACH_UNKNOWN_MODE")
    else .next (transact p (requestClocks rest) (fun t => (t, .badParam)) s)

/-- DETACH (R143). -/
def detachBody (p : Port) (s : State) : State × Response :=
  if (s.readers.get p).attached then (detachReader p s, .ok) else (s, .ok)

def execDetach (p : Port) (rest : List Bool) (s : State) : Host.Outcome State Fault Refusal :=
  .next (transact p (requestClocks rest) (detachBody p) s)

/-- A record is delivered: its serial joins the end of the sequence (R145). -/
def deliver (p : Port) (r : Record) (s : State) : State :=
  let rd := s.readers.get p
  evaluateBacklog p (s.setReader p { rd with delivered := rd.delivered ++ [r.serial] })

/-- TAKE, its conditions in order (R145). -/
def takeBody (p : Port) (s : State) : State × Response :=
  let rd := s.readers.get p
  if !rd.attached then (s, .notAttached)
  else if Config.windowDepth ≤ rd.delivered.length then (s, .windowFull)
  else
    match s.firstAvailable p with
    | none => (s, .none)
    | some r => (deliver p r s, .taken ((deliver p r s).backlog p) r)

def execTake (p : Port) (rest : List Bool) (s : State) : Host.Outcome State Fault Refusal :=
  .next (transact p (requestClocks rest) (takeBody p) s)

/-- The records of the sequence up to a serial are confirmed, and tested for removal (R148). -/
def confirmUpTo (p : Port) (v : Serial) (s : State) : State :=
  let rd := s.readers.get p
  let confirmed := deliveredUpTo v rd.delivered
  removalTest (fun r => confirmed.contains r.serial)
    (markSerials p confirmed (s.setReader p { rd with delivered := deliveredAfter v rd.delivered }))

/-- CONFIRM of a serial, its conditions in order (R148). -/
def confirmBody (p : Port) (v : Serial) (s : State) : State × Response :=
  let rd := s.readers.get p
  if !rd.attached then (s, .notAttached)
  else if !rd.delivered.contains v then (s, .badParam)
  else (confirmUpTo p v s, .counted (deliveredUpTo v rd.delivered).length)

def execConfirm (p : Port) (rest : List Bool) (s : State) : Host.Outcome State Fault Refusal :=
  match wholeBytes rest with
  | hi :: lo :: _ =>
    .next (transact p (requestClocks rest) (confirmBody p (BitVec.ofNat 16 (word16 hi lo))) s)
  | _ => .next (transact p (requestClocks rest) (fun t => (t, .short codeConfirm)) s)

/-- REWIND (R151). -/
def rewindBody (p : Port) (s : State) : State × Response :=
  let rd := s.readers.get p
  if !rd.attached then (s, .notAttached)
  else if rd.delivered.isEmpty then (s, .counted 0)
  else (evaluateBacklog p (s.setReader p { rd with delivered := [] }), .counted rd.delivered.length)

def execRewind (p : Port) (rest : List Bool) (s : State) : Host.Outcome State Fault Refusal :=
  .next (transact p (requestClocks rest) (rewindBody p) s)

end Sys2Proof.Machine
end

