-- ==== Sys2Proof/Machine/PortCommands.lean ====
section
/-! DEFINITION. The other port requests and events: IDENTIFY, STATUS, FETCH, READ_FETCH, GET_ANCHOR, PORT_RESET,
UNKNOWN_REQUEST, EMPTY_TRANSACTION, LOCKED_OUT_SELECT (chapter 10). -/

namespace Sys2Proof.Machine

/-- IDENTIFY returns and removes the enabled source of highest priority (R179). -/
def identifyBody (p : Port) (s : State) : State × Response :=
  let i := s.ports.get p
  match highestEnabled i.notices i.mask with
  | none => (s, .none)
  | some n =>
    let left := noticeRemove n i.notices
    (s.setPort p { i with notices := left }, .identified n (highestEnabled left i.mask).isSome)

def execIdentify (p : Port) (rest : List Bool) (s : State) : Host.Outcome State Fault Refusal :=
  .next (transact p (requestClocks rest) (identifyBody p) s)

/-- The STATUS block of a port (R176). -/
def statusOf (p : Port) (s : State) : StatusBlock where
  core := s.settings.core
  link := s.intake.link
  timing := s.tmu.timing
  attached := (s.readers.get p).attached
  backlog := s.backlog p
  deliveredLength := (s.readers.get p).delivered.length
  fill := s.list.records.length
  generation := s.settings.generation
  newest := s.newestIndex
  engine := (s.ports.get p).engine.code
  notices := (s.ports.get p).notices
  mask := (s.ports.get p).mask

/-- STATUS (R176). -/
def execStatus (p : Port) (rest : List Bool) (s : State) : Host.Outcome State Fault Refusal :=
  .next (transact p (requestClocks rest) (fun t => (t, .statusBlock (statusOf p t))) s)

/-- The oldest held and the newest index, when the ring holds any (R182). -/
def heldRange (s : State) : Option (Index × Index) :=
  match s.ring.oldest, s.newestIndex with
  | some o, some n => some (o, n)
  | _, _ => none

/-- An accepted FETCH replaces whatever the engine held (R183). -/
def beginFetch (p : Port) (f : Fetch) (s : State) : State :=
  { s.setPort p { s.ports.get p with engine := .filling f } with
    clock := { s.clock with fillOrder := s.clock.fillOrder.erase p ++ [p] } }

/-- FETCH, its checks in order (R182, R183). -/
def fetchBody (p : Port) (start : Index) (count : Nat) (mask : Bands Bool) (s : State) : State × Response :=
  if count = 0 ∨ Config.fetchMax < count then (s, .badParam)
  else
    match s.newestIndex with
    | none => (s, .notYetHeld none)
    | some n =>
      if !s.ring.holds start then
        if earlier n start then (s, .notYetHeld (heldRange s)) else (s, .gone (heldRange s))
      else if earlier n (subSlots (addSlots start count) 1) then (s, .notYetHeld (heldRange s))
      else (beginFetch p { start := start, count := count, mask := mask, returned := 0, buffer := [] } s, .ok)

def execFetch (p : Port) (rest : List Bool) (s : State) : Host.Outcome State Fault Refusal :=
  match wholeBytes rest with
  | i3 :: i2 :: i1 :: i0 :: hi :: lo :: mask :: _ =>
    .next (transact p (requestClocks rest)
      (fetchBody p (index32 i3 i2 i1 i0) (word16 hi lo) (contentMask mask)) s)
  | _ => .next (transact p (requestClocks rest) (fun t => (t, .short codeFetch)) s)

/-- The next slots of a fetch, and the fetch with them returned (R185). -/
def nextSlots (f : Fetch) : List ReadResult := (f.buffer.drop f.returned).take Config.readFetchMax

def Fetch.afterReturn (f : Fetch) : Fetch := { f with returned := f.returned + (nextSlots f).length }

/-- The response that returns the next slots of a fetch (R185). -/
def slotsResponse (f : Fetch) : Response :=
  .slots (f.count - f.afterReturn.returned) f.mask (nextSlots f)

/-- READ FETCH by the engine's state (R185). -/
def readFetchBody (p : Port) (s : State) : State × Response :=
  let i := s.ports.get p
  match i.engine with
  | .idle => (s, .none)
  | .filling f =>
    if f.buffer.length = f.returned then (s, .notYet)
    else (s.setPort p { i with engine := .filling f.afterReturn }, slotsResponse f)
  | .ready f =>
    if f.count ≤ f.afterReturn.returned then (s.setPort p { i with engine := .idle }, slotsResponse f)
    else (s.setPort p { i with engine := .ready f.afterReturn }, slotsResponse f)

def execReadFetch (p : Port) (rest : List Bool) (s : State) : Host.Outcome State Fault Refusal :=
  .next (transact p (requestClocks rest) (readFetchBody p) s)

/-- GET ANCHOR (R32). -/
def execGetAnchor (p : Port) (rest : List Bool) (s : State) : Host.Outcome State Fault Refusal :=
  .next (transact p (requestClocks rest)
    (fun t => (t, .anchors t.tmu.timing t.tmu.holdover t.tmu.latest t.tmu.previous)) s)

/-- A port's interface and reader after PORT RESET (R187). -/
def portResetBody (p : Port) (s : State) : State × Response :=
  let detached := detachReader p s
  let i := detached.ports.get p
  let cleared := detached.setPort p { i with notices := 0, mask := 255, engine := .idle }
  ({ cleared.setReader p { detached.readers.get p with threshold := 8 } with
      clock := { s.clock with fillOrder := s.clock.fillOrder.erase p } }, .nothing)

/-- PORT RESET (R136, R156, R187). -/
def execPortReset (p : Port) (rest : List Bool) (s : State) : Host.Outcome State Fault Refusal :=
  .next (transact p (requestClocks rest) (portResetBody p) s)

/-- A request whose first byte names no request is answered UNKNOWN (R174). -/
def execUnknownRequest (p : Port) (code : Byte) (rest : List Bool) (s : State) :
    Host.Outcome State Fault Refusal :=
  if requestCodes.contains code then .refused (.illFormed "UNKNOWN_REQUEST")
  else .next (transact p (requestClocks rest) (fun t => (t, .unknown code)) s)

/-- A transaction that shifted in no whole byte keeps the pending response (R172, R173). -/
def execEmptyTransaction (p : Port) (bits : List Bool) (s : State) : Host.Outcome State Fault Refusal :=
  if bits.length < 8 then
    .next (transact p bits.length (fun t => (t, (t.ports.get p).response)) s)
  else .refused (.illFormed "EMPTY_TRANSACTION")

/-- A select asserted too soon, or still asserted, sets the lock-out; the port shifts out 0 and keeps the pending
response. At the release of that select the lock-out clears (R175). While RESET is asserted the select is disregarded
(R188). -/
def execLockedOutSelect (p : Port) (clocks : Nat) (s : State) (held : Bool := false) :
    Host.Outcome State Fault Refusal :=
  if s.resetHeld then .next (disregard p clocks held s)
  else
    .next (s.setPort p
      { s.ports.get p with lockOut := held, selected := held, dout := List.replicate clocks false })

end Sys2Proof.Machine
end

