-- ==== Sys2Proof/Machine/PowerCommands.lean ====
section
/-! DEFINITION. POWER_ON and RESET. -/

namespace Sys2Proof.Machine

/-- POWER_ON: every block in its reset state; the commands that wait stay waiting (R22, R33, R44, R57, R87, R117,
R137, R156, R171, R188). -/
def execPowerOn (s : State) : Host.Outcome State Fault Refusal :=
  .next { State.reset with pending := s.pending }

/-- A port at the assertion of RESET. A transaction in progress is abandoned: the response bits clocked so far have
been shifted out, and the bits shifted in are discarded. A select that is asserted stays so (R188). -/
def assertResetPort (bits : Option (List Bool)) (i : PortInterface) : PortInterface :=
  { PortInterface.reset with
    selected := i.selected || bits.isSome
    dout := match bits with
      | none => []
      | some b => if i.lockOut then List.replicate b.length false else shiftOut i.response b.length }

/-- A port at the release of RESET: its lock-out is set when select is asserted then (R188). -/
def releaseResetPort (select : Bool) : PortInterface :=
  { PortInterface.reset with selected := select, lockOut := select }

/-- RESET asserted puts every block into its reset state and holds it there; RESET released leaves it there (R188).
The line pin keeps its level. -/
def execReset (s : State) (edge : ResetEdge := .released false false) :
    Host.Outcome State Fault Refusal :=
  let reset : State :=
    { State.reset with intake := { FrameIntake.reset with line := s.intake.line }, pending := s.pending }
  match edge with
  | .asserted a b =>
    .next { reset with
      ports := { a := assertResetPort a s.ports.a, b := assertResetPort b s.ports.b }
      resetHeld := true }
  | .released a b =>
    .next { reset with ports := { a := releaseResetPort a, b := releaseResetPort b } }

end Sys2Proof.Machine
end

