-- ==== Sys2Proof/Machine/RefinerCommands.lean ====
section
/-! DEFINITION. The refiner's and the list's handling of the newest slot write, and the refiner's own events:
DEADLINE_EXPIRY, SCAN_START, LAUNCH, RETIREMENT, RELEASE, READ_GRANT, RESOLUTION_COMPLETION. -/

namespace Sys2Proof.Machine

/-- A begun handling of the list is completed before the refiner's next step. -/
def finishList (s : State) : State :=
  match s.owed.list with
  | .release => listFinish s
  | .retire | .done => s

/-- A begun handling of the refiner is completed before the list's next step. -/
def finishRefiner (s : State) : State :=
  match s.owed.refiner with
  | .scanStart | .launch => refinerFinish s
  | .expiry | .done => s

/-- DEADLINE_EXPIRY: step 1 of the refiner's handling (R96 to R98). -/
def execDeadlineExpiry (s : State) : Host.Outcome State Fault Refusal :=
  .next (refinerExpiry (finishList s))

/-- SCAN_START: the handling up to step 2 (R93, R96). -/
def execScanStart (s : State) : Host.Outcome State Fault Refusal :=
  .next (refinerScanStart (finishList s))

/-- LAUNCH: what is left of the handling, then the launch examination (R92). -/
def execLaunch (s : State) : Host.Outcome State Fault Refusal :=
  .next (launchExamination (refinerFinish (finishList s)))

/-- RETIREMENT: the list's handling up to step 2 (R132). -/
def execRetirement (s : State) : Host.Outcome State Fault Refusal :=
  .next (listRetire (finishRefiner s))

/-- RELEASE: what is left of the list's handling (R124, R125). -/
def execRelease (s : State) : Host.Outcome State Fault Refusal :=
  .next (listFinish (finishRefiner s))

/-- READ_GRANT: the arbiter's next grant, at the first instant the spacing allows (R38 to R42). Before it, and also
where nobody is eligible, a complete frame is judged, the slots in hand are written and what is owed is taken in the
default order: DESIGN CHOICE, notes/assumptions/3.md and 5.md. -/
def execReadGrant (s0 : State) : Host.Outcome State Fault Refusal :=
  let s := settle s0
  match s.grantee with
  | none => .next s
  | some _ => .next (grantRead (advanceTo (max s.clock.now s.clock.grantFrom) s))

/-- RESOLUTION_COMPLETION of a lane, after what is owed to the newest slot write, the write of its deadline among it
(R95, R99, R112). -/
def execResolutionCompletion (l : LaneId) (s : State) : Host.Outcome State Fault Refusal :=
  .next (completeLane l (settleOwed s))

end Sys2Proof.Machine
end

