-- ==== Sys2Proof/Machine/SettingsCommands.lean ====
section
/-! DEFINITION. The settings and core-control requests: GET_PROFILE, SET_PROFILE, GET_STATION, SET_STATION, SET_PORT,
START, STOP (chapter 9). -/

namespace Sys2Proof.Machine

/-- GET PROFILE of a named band (R161). -/
def getProfileBody (b : Option Band) (s : State) : State × Response :=
  match b with
  | none => (s, .badParam)
  | some b =>
    let u := s.units.get b
    (s, .profiles b u.profile u.generation u.staged)

def execGetProfile (p : Port) (rest : List Bool) (s : State) : Host.Outcome State Fault Refusal :=
  match wholeBytes rest with
  | band :: _ => .next (transact p (requestClocks rest) (getProfileBody (bandOfByte band)) s)
  | [] => .next (transact p (requestClocks rest) (fun t => (t, .short codeGetProfile)) s)

/-- The next generation is counted (R166). -/
def countGeneration (s : State) : State :=
  { s with settings := { s.settings with generation := s.settings.generation + 1 } }

/-- A profile written for a band is clamped, takes the next generation, and is applied or staged; SETTINGS is raised on
the other port (R158, R159). -/
def setProfileBody (p : Port) (b : Option Band) (written : Profile) (s : State) : State × Response :=
  match b with
  | none => (s, .badParam)
  | some b =>
    let counted := countGeneration s
    let given : Staged := { profile := clampProfile written, generation := counted.settings.generation }
    (raise .settings p.other (counted.setUnit b ((s.units.get b).accept given)),
     .profileSet (decide (clampProfile written ≠ written)) given.generation (s.units.get b).state.frozen)

/-- SET PROFILE. A slot write comes whole before it or after it: what is owed to the newest one is taken first
(R82, R83, R159, R160). -/
def execSetProfile (p : Port) (rest : List Bool) (s : State) : Host.Outcome State Fault Refusal :=
  match wholeBytes rest with
  | band :: fields =>
    if fields.length < 38 then
      .next (transact p (requestClocks rest) (fun t => (t, .short codeSetProfile)) s)
    else
      .next (transact p (requestClocks rest)
        (fun t => setProfileBody p (bandOfByte band) (profileOfWords (words16 fields)) (settleOwed t)) s)
  | [] => .next (transact p (requestClocks rest) (fun t => (t, .short codeSetProfile)) s)

/-- GET STATION (R165). -/
def execGetStation (p : Port) (rest : List Bool) (s : State) : Host.Outcome State Fault Refusal :=
  .next (transact p (requestClocks rest) (fun t => (t, .station t.settings.station t.settings.generation)) s)

/-- Clamped station settings are accepted: they come into force, the generation counts one, SETTINGS is raised on the
other port, and a changed divider acts at once (R163, R164, R6, R20). -/
def acceptStation (p : Port) (t : Station) (s : State) : State :=
  let counted := countGeneration s
  let accepted := raise .settings p.other
    { counted with settings := { counted.settings with station := t } }
  if t.linkDivider = s.settings.station.linkDivider then accepted else changeDivider accepted

/-- What comes before SET STATION: what is owed to the newest slot write, and, where the request names another divider,
a frame that is complete or in hand, which was judged before the change (R6, R8, R163, R164). A request that is then
answered BUSY and changes no divider is preceded by the frame and its slots just the same, an order R175 leaves open:
DESIGN CHOICE, notes/assumptions/3.md. -/
def settleForStation (t : Station) (s : State) : State :=
  if t.linkDivider = s.settings.station.linkDivider then settleOwed s else settle s

/-- SET STATION: accepted while STOPPED, or while RUNNING when the divider alone differs; else BUSY (R163, R164). -/
def setStationBody (p : Port) (written : Station) (s : State) : State × Response :=
  let t := clampStation written
  if s.settings.core = .stopped ∨ onlyDividerDiffers t s.settings.station then
    (acceptStation p t s, .stationSet (decide (t ≠ written)) (s.settings.generation + 1))
  else (s, .busy)

def execSetStation (p : Port) (rest : List Bool) (s : State) : Host.Outcome State Fault Refusal :=
  let fields := wholeBytes rest
  if fields.length < 14 then
    .next (transact p (requestClocks rest) (fun t => (t, .short codeSetStation)) s)
  else
    let written := stationOfWords (words16 fields)
    .next (transact p (requestClocks rest)
      (fun t => setStationBody p written (settleForStation (clampStation written) t)) s)

/-- SET PORT: the clamped threshold, evaluated at once, and the enable mask (R167, R155, R181). -/
def setPortBody (p : Port) (threshold mask : Byte) (s : State) : State × Response :=
  let t := clamp 1 64 threshold.toNat
  let masked := s.setPort p { s.ports.get p with mask := mask }
  (evaluateBacklog p (masked.setReader p { s.readers.get p with threshold := t }),
   if t = threshold.toNat then .ok else .adjusted)

def execSetPort (p : Port) (rest : List Bool) (s : State) : Host.Outcome State Fault Refusal :=
  match wholeBytes rest with
  | threshold :: mask :: _ => .next (transact p (requestClocks rest) (setPortBody p threshold mask) s)
  | _ => .next (transact p (requestClocks rest) (fun t => (t, .short codeSetPort)) s)

/-- START from STOPPED, else nothing (R168). -/
def startBody (s : State) : State × Response :=
  if s.settings.core = .stopped then (startCore s, .ok) else (s, .ok)

/-- START, after what is owed to the newest slot write (R85, R168). -/
def execStart (p : Port) (rest : List Bool) (s : State) : Host.Outcome State Fault Refusal :=
  .next (transact p (requestClocks rest) (fun t => startBody (settleOwed t)) s)

/-- STOP from RUNNING, else nothing (R169). -/
def stopBody (s : State) : State × Response :=
  if s.settings.core = .running then (stopCore s, .ok) else (s, .ok)

/-- STOP, after what is owed to the newest slot write (R54, R86, R116, R169). -/
def execStop (p : Port) (rest : List Bool) (s : State) : Host.Outcome State Fault Refusal :=
  .next (transact p (requestClocks rest) (fun t => stopBody (settleOwed t)) s)

end Sys2Proof.Machine
end

