-- ==== Sys2Proof/Machine/SlotEvents.lean ====
section
/-! DEFINITION. What the Trigger Units and the Time Mark Unit owe to the newest slot write: GAP_RUN_EVENT,
WARM_COUNT_EXPIRY, PRIMARY_DECLARATION, STACKED_DECLARATION, MAX_DUR_EXPIRY, DEAD_COUNT_EXPIRY, WATCH_EXPIRY and
HOLDOVER_EXPIRY. An event whose cause does not stand does not happen: nothing changes. -/

namespace Sys2Proof.Machine

/-- The event of a band, if that is what its unit owes to the newest slot write. -/
def unitRow (d : UnitDue) (b : Band) (s : State) : State :=
  if s.unitDue b = d then unitFinish b s else s

/-- GAP_RUN_EVENT: the event of the newest slot write reaches the three units (R21, R63 to R65, R68, R72, R75). -/
def execGapRunEvent (s0 : State) : Host.Outcome State Fault Refusal :=
  .next (unitRow .gapRun .b2 (unitRow .gapRun .b1 (unitRow .gapRun .b0 (finishBegun s0))))

/-- WARM_COUNT_EXPIRY (R64). -/
def execWarmCountExpiry (b : Band) (s : State) : Host.Outcome State Fault Refusal :=
  .next (unitRow .warm b (finishBegun s))

/-- PRIMARY_DECLARATION (R67, R68). -/
def execPrimaryDeclaration (b : Band) (s : State) : Host.Outcome State Fault Refusal :=
  .next (unitRow .primary b (finishBegun s))

/-- STACKED_DECLARATION (R74). -/
def execStackedDeclaration (b : Band) (s : State) : Host.Outcome State Fault Refusal :=
  .next (unitRow .stacked b (finishBegun s))

/-- MAX_DUR_EXPIRY (R70). -/
def execMaxDurExpiry (b : Band) (s : State) : Host.Outcome State Fault Refusal :=
  .next (unitRow .maxDur b (finishBegun s))

/-- DEAD_COUNT_EXPIRY (R75). -/
def execDeadCountExpiry (b : Band) (s : State) : Host.Outcome State Fault Refusal :=
  .next (unitRow .dead b (finishBegun s))

/-- WATCH_EXPIRY (R27). -/
def execWatchExpiry (s0 : State) : Host.Outcome State Fault Refusal :=
  let s := finishBegun s0
  .next (if s.watchDue then timingFinish s else s)

/-- HOLDOVER_EXPIRY (R28). -/
def execHoldoverExpiry (s0 : State) : Host.Outcome State Fault Refusal :=
  let s := finishBegun s0
  .next (if s.holdoverDue then timingFinish s else s)

end Sys2Proof.Machine
end

