-- ==== Sys2Proof/Machine/Dispatch.lean ====
section
/-! DEFINITION. A command's effect on everything but the queue of waiting commands: one arm for each row. -/

namespace Sys2Proof.Machine

def exec (i : Instr) (s : State) : Host.Outcome State Fault Refusal :=
  match i with
  | .powerOn => Sys2Proof.Machine.execPowerOn s
  | .reset edge => Sys2Proof.Machine.execReset s edge
  | .frame hold => Sys2Proof.Machine.execFrame s hold
  | .assemblyTimerExpiry => Sys2Proof.Machine.execAssemblyTimerExpiry s
  | .linkTimerExpiry => Sys2Proof.Machine.execLinkTimerExpiry s
  | .gapSlotTimerExpiry => Sys2Proof.Machine.execGapSlotTimerExpiry s
  | .timeMark after => Sys2Proof.Machine.execTimeMark after s
  | .gapRunEvent => Sys2Proof.Machine.execGapRunEvent s
  | .watchExpiry => Sys2Proof.Machine.execWatchExpiry s
  | .holdoverExpiry => Sys2Proof.Machine.execHoldoverExpiry s
  | .warmCountExpiry band => Sys2Proof.Machine.execWarmCountExpiry band s
  | .primaryDeclaration band => Sys2Proof.Machine.execPrimaryDeclaration band s
  | .stackedDeclaration band => Sys2Proof.Machine.execStackedDeclaration band s
  | .maxDurExpiry band => Sys2Proof.Machine.execMaxDurExpiry band s
  | .deadCountExpiry band => Sys2Proof.Machine.execDeadCountExpiry band s
  | .launch => Sys2Proof.Machine.execLaunch s
  | .scanStart => Sys2Proof.Machine.execScanStart s
  | .readGrant => Sys2Proof.Machine.execReadGrant s
  | .resolutionCompletion lane => Sys2Proof.Machine.execResolutionCompletion lane s
  | .deadlineExpiry => Sys2Proof.Machine.execDeadlineExpiry s
  | .release => Sys2Proof.Machine.execRelease s
  | .retirement => Sys2Proof.Machine.execRetirement s
  | .identify port rest => Sys2Proof.Machine.execIdentify port rest s
  | .status port rest => Sys2Proof.Machine.execStatus port rest s
  | .attachAll port rest => Sys2Proof.Machine.execAttachAll port rest s
  | .attachFromNow port rest => Sys2Proof.Machine.execAttachFromNow port rest s
  | .attachUnknownMode port rest => Sys2Proof.Machine.execAttachUnknownMode port rest s
  | .detach port rest => Sys2Proof.Machine.execDetach port rest s
  | .take port rest => Sys2Proof.Machine.execTake port rest s
  | .confirm port rest => Sys2Proof.Machine.execConfirm port rest s
  | .rewind port rest => Sys2Proof.Machine.execRewind port rest s
  | .fetch port rest => Sys2Proof.Machine.execFetch port rest s
  | .readFetch port rest => Sys2Proof.Machine.execReadFetch port rest s
  | .getProfile port rest => Sys2Proof.Machine.execGetProfile port rest s
  | .setProfile port rest => Sys2Proof.Machine.execSetProfile port rest s
  | .getStation port rest => Sys2Proof.Machine.execGetStation port rest s
  | .setStation port rest => Sys2Proof.Machine.execSetStation port rest s
  | .setPort port rest => Sys2Proof.Machine.execSetPort port rest s
  | .start port rest => Sys2Proof.Machine.execStart port rest s
  | .stop port rest => Sys2Proof.Machine.execStop port rest s
  | .getAnchor port rest => Sys2Proof.Machine.execGetAnchor port rest s
  | .portReset port rest => Sys2Proof.Machine.execPortReset port rest s
  | .unknownRequest port code rest => Sys2Proof.Machine.execUnknownRequest port code rest s
  | .emptyTransaction port bits => Sys2Proof.Machine.execEmptyTransaction port bits s
  | .lockedOutSelect port clocks held => Sys2Proof.Machine.execLockedOutSelect port clocks s held
  | .byteDelivered line => Sys2Proof.Machine.execByteDelivered line s

end Sys2Proof.Machine
end

