-- ==== Sys2Proof/Machine/Idle.lean ====
section
/-! DEFINITION. What the part does of its own accord while no command waits. -/

namespace Sys2Proof.Machine

/-- The lowest-numbered lane in RESOLVING. -/
def Refiner.resolvingLane (r : Refiner) : Option LaneId :=
  [LaneId.l0, .l1, .l2, .l3].find? fun l =>
    match r.lanes.get l with
    | .resolving _ _ _ => true
    | .free | .waiting _ | .scanning _ _ => false

/-- One idle step: what is owed is taken; else a resolution completes; else the arbiter grants a read if one is due;
else one period of f_ref passes (DESIGN CHOICE, notes/assumptions/2.md). -/
def idle (s : State) : State :=
  if s.owed ≠ Owed.nothing ∨ s.intake.assembler.complete.isSome ∨ s.intake.inHand.isSome then settle s
  else
    match s.refiner.resolvingLane with
    | some l => completeLane l s
    | none =>
      if s.grantee.isSome ∧ s.clock.grantFrom ≤ s.clock.now then grantRead s
      else advanceTo (s.clock.now + 1) s

end Sys2Proof.Machine
end

