-- ==== Sys2Proof/Safety.lean ====
section
/-! DEFINITION. What the claims speak of: when nothing is owed, what a transaction alone changes, and the
conditions that every step of the part keeps. -/

namespace Sys2Proof.Machine

/-! ### When nothing waits to be taken -/

/-- No complete frame waits to be judged, no slot of a judged frame waits to be written, and no block owes anything
to the newest slot write. -/
def State.Settled (s : State) : Prop :=
  s.intake.assembler.complete = none ∧ s.intake.inHand = none ∧ s.owed = Owed.nothing

/-- No handling of the newest slot write is half taken: each of the blocks may still owe its whole handling. -/
def State.NothingBegun (s : State) : Prop :=
  (s.owed.refiner = .expiry ∨ s.owed.refiner = .done) ∧ (s.owed.list = .retire ∨ s.owed.list = .done)

/-- The ports execute requests: RESET is released, and no handling of a slot write is half taken. -/
def State.PortsOpen (s : State) : Prop := s.resetHeld = false ∧ s.NothingBegun

/-- Nothing happens of itself before an instant: no timer of Frame Intake expires, and no byte completes at the samples
that fall before it with the line at its present level. -/
def State.QuietUntil (s : State) (t : Nat) : Prop :=
  (∀ k d, s.timer k = some d → t ≤ d) ∧ (rxRun s.level (s.samplesBefore t) s.intake.receiver).byte = none

/-- The state once time has passed quietly up to an instant: the clock stands there, and the receiver has taken the
samples before it. -/
def State.waited (s : State) (t : Nat) : State :=
  (s.setNow t).setIntake
    (s.afterSamples (s.samplesBefore t) (rxRun s.level (s.samplesBefore t) s.intake.receiver).receiver)

/-- The receiver over a stretch of the line, time aside, and the bytes it completes in order (R5). -/
def rxLine : Line → Receiver → List LinkByte → Receiver × List LinkByte
  | [], rx, out => (rx, out)
  | (level, n) :: more, rx, out =>
    rxLine more (rxRun level n rx).receiver (out ++ (rxRun level n rx).byte.toList)

/-- The state after a transaction on a port that changes nothing but the exchange itself: the response that was
pending has been shifted out for `clocks` clock periods, and `r` is pending in its place (R172, R173). -/
def State.answered (s : State) (p : Port) (clocks : Nat) (r : Response) : State :=
  s.setPort p
    { s.ports.get p with
      response := r
      lockOut := false
      selected := false
      dout := shiftOut (s.ports.get p).response clocks }

/-! ### What a claim points at -/

/-- A record of a key and a kind part stands in the list. -/
def State.HasRecord (s : State) (key : Index) (d : Detail) : Prop :=
  ∃ r ∈ s.list.records, r.key = key ∧ r.detail = d

/-- A source is pending in a port's notice set (R177). -/
def State.Noticed (s : State) (n : Notice) (p : Port) : Prop := noticeIn n (s.ports.get p).notices = true

/-- A request stands in the launch queue or in a lane (R88). -/
def State.InFlight (s : State) (r : Request) : Prop :=
  r ∈ s.refiner.queue ∨ ∃ l, (s.refiner.lanes.get l).request = some r

/-- The newest slot, as it reads, is of an index and an acceptance instant, carries a reading, and has the DAMAGED and
GAP flags given (R11, R12, R35). -/
def State.WroteSlot (s : State) (i : Index) (accepted : Nat) (r : Reading) (damaged gap : Bool) : Prop :=
  s.ring.newest = some { index := i, accepted := accepted }
    ∧ ∃ v, (s.ring.read i).slot = some v ∧ v.reading = r ∧ v.damaged = damaged ∧ v.gap = gap

/-- Everything but what is owed, the list, the readers and the ports is the same in two states. -/
def State.SameCore (s t : State) : Prop :=
  t.intake = s.intake ∧ t.filters = s.filters ∧ t.ring = s.ring ∧ t.settings = s.settings ∧ t.clock = s.clock
    ∧ t.resetHeld = s.resetHeld ∧ t.pending = s.pending

/-- A Reader Context after an evaluation of its backlog notice at a backlog: the armed flag is set exactly below the
threshold (R154). -/
def Reader.evaluatedAt (rd : Reader) (backlog : Nat) : Reader :=
  { rd with armed := decide (backlog < rd.threshold) }

/-- A port's notice set after that evaluation: BACKLOG is raised when the flag was set and the threshold is reached
(R154). -/
def Reader.noticesAt (rd : Reader) (backlog : Nat) (set : BitVec 8) : BitVec 8 :=
  if rd.armed = true ∧ rd.threshold ≤ backlog then noticeAdd .backlog set else set

/-- One bit of a message at a shift register for x^8 + x^2 + x + 1 (R9). -/
def crcShift (c : Byte) (bit : Bool) : Byte :=
  if c.getLsbD 7 != bit then (c <<< 1) ^^^ 0x07 else c <<< 1

/-- The number that a run of bytes carries in `len` bytes from byte `start` on, counted from 0, most significant first
(R174, R191 to R194). -/
def fieldAt (bs : List Byte) (start len : Nat) : Nat :=
  ((bs.drop start).take len).foldl (fun n v => 256 * n + v.toNat) 0

/-- A record is available to a port's reader (R134). -/
def State.Available (s : State) (p : Port) (r : Record) : Prop :=
  r.released = true ∧ r.marks.get p = false ∧ r.serial ∉ (s.readers.get p).delivered

/-! ### Ranges of the settings (R157, R162, R167) -/

/-- Every field of a band profile lies in its range, the dependent ranges among them (R157). -/
def Profile.Legal (p : Profile) : Prop :=
  p.fastShift ≤ 6
    ∧ (p.fastShift + 1 ≤ p.slowShift ∧ p.slowShift ≤ 12)
    ∧ (1 ≤ p.staShift ∧ p.staShift ≤ 8)
    ∧ (p.staShift + 2 ≤ p.ltaShift ∧ p.ltaShift ≤ 14)
    ∧ (17 ≤ p.on ∧ p.on ≤ 255)
    ∧ (16 ≤ p.off ∧ p.off ≤ p.on - 1)
    ∧ (17 ≤ p.jump ∧ p.jump ≤ 255)
    ∧ (1 ≤ p.confirmLen ∧ p.confirmLen ≤ 64)
    ∧ (1 ≤ p.ltaFloor ∧ p.ltaFloor ≤ 65535)
    ∧ p.warmLen ≤ 65535
    ∧ (256 ≤ p.maxDur ∧ p.maxDur ≤ 65535)
    ∧ p.deadLen ≤ 4095
    ∧ (16 ≤ p.pre ∧ p.pre ≤ 256)
    ∧ (16 ≤ p.post ∧ p.post ≤ 256)
    ∧ p.margin ≤ 4095
    ∧ (4 ≤ p.polLen ∧ p.polLen ≤ p.post)
    ∧ (4 ≤ p.ampLen ∧ p.ampLen ≤ p.post)
    ∧ (129 ≤ p.pThresh ∧ p.pThresh ≤ 255)
    ∧ p.sThresh ≤ 127

/-- Every station setting lies in its range (R162). -/
def Station.Legal (t : Station) : Prop :=
  (640 ≤ t.holdback ∧ t.holdback ≤ 4096)
    ∧ (1 ≤ t.launches ∧ t.launches ≤ 4)
    ∧ (1 ≤ t.span ∧ t.span ≤ 1000)
    ∧ (1 ≤ t.gapLimit ∧ t.gapLimit ≤ 1000)
    ∧ (20 ≤ t.fps ∧ t.fps ≤ 500)
    ∧ (1 ≤ t.holdoverLimit ∧ t.holdoverLimit ≤ 3600)
    ∧ t.linkDivider ≤ 255

/-- The settings in force are legal: the station settings, every applied and staged profile, and both thresholds
(R157, R162, R167). -/
def State.SettingsLegal (s : State) : Prop :=
  s.settings.station.Legal
    ∧ (∀ b, (s.units.get b).profile.Legal)
    ∧ (∀ b g, (s.units.get b).staged = some g → g.profile.Legal)
    ∧ (∀ p, 1 ≤ (s.readers.get p).threshold ∧ (s.readers.get p).threshold ≤ 64)

/-! ### The ring (R35, R36, R40) -/

/-- The ring is kept: the positions written are 0 … w − 1 in order, each listed once; while w is below 8192 the next
index is w; the newest index is the one before the next; and no interval exceeds its budget. -/
def State.RingKept (s : State) : Prop :=
  s.ring.cells.map Prod.fst = List.range s.ring.written
    ∧ s.ring.written ≤ Config.ringDepth
    ∧ (s.ring.written < Config.ringDepth → s.intake.nextIndex = BitVec.ofNat 32 s.ring.written)
    ∧ s.ring.newest.map Newest.index = (if s.ring.written = 0 then none else some (s.intake.nextIndex - 1))
    ∧ s.ring.laneReads + s.ring.fetchReads ≤ Config.intervalBudget

/-! ### The link (section 1.5, R12) -/

/-- The link state agrees with what Frame Intake keeps in it: the expected counter and the link timer in RUNNING, the
gap-slot timer in LOST, a last good sample outside SEARCHING, and slots in hand in RUNNING only; and no sample of the
line is overdue. -/
def State.LinkKept (s : State) : Prop :=
  s.clock.now ≤ s.intake.nextSample ∧ (s.intake.inHand.isSome → s.intake.link = .running) ∧
  match s.intake.link with
  | .searching =>
    s.intake.expected = none ∧ s.intake.linkTimer = none ∧ s.intake.gapSlotTimer = none
      ∧ s.intake.lastGood = none
  | .running =>
    s.intake.expected.isSome ∧ s.intake.linkTimer.isSome ∧ s.intake.gapSlotTimer = none
      ∧ s.intake.lastGood.isSome
  | .lost =>
    s.intake.expected = none ∧ s.intake.linkTimer = none ∧ s.intake.gapSlotTimer.isSome
      ∧ s.intake.lastGood.isSome

/-! ### The core (R53, R54, R62, R116) -/

/-- While the core is STOPPED every band is OFF, the filter averages are 0, the launch queue is empty and the lanes are
FREE; while it is RUNNING no band is OFF. -/
def State.CoreKept (s : State) : Prop :=
  match s.settings.core with
  | .stopped =>
    (∀ b, (s.units.get b).state = .off) ∧ s.filters = FilterBank.reset
      ∧ s.refiner.queue = [] ∧ s.refiner.lanes = Lanes.all .free
  | .running => ∀ b, (s.units.get b).state ≠ .off

/-! ### The Trigger Units (R59, R66, R73, R76, R83) -/

/-- What a unit holds agrees with its state: the frozen LTA and t_on in PENDING and DECLARED only, a held minimum
with every t_on2, a confirmation only below stack index 3 and no stack index above it, and a staged profile in PENDING and DECLARED only. -/
def TriggerUnit.Kept (u : TriggerUnit) : Prop :=
  (u.state.frozen = true → u.frozenLta.isSome ∧ u.tOn.isSome)
    ∧ (u.state = .warming ∨ u.state = .idle ∨ u.state = .cooldown → u.frozenLta = none ∧ u.tOn = none)
    ∧ (u.state = .warming ∨ u.state = .idle ∨ u.state = .pending ∨ u.state = .cooldown → u.tOn2 = none)
    ∧ (u.state = .declared → u.tOn2.isSome = u.heldMin.isSome)
    ∧ (u.state = .declared → u.tOn2.isSome → u.stack < 3)
    ∧ u.stack ≤ 3
    ∧ (u.staged.isSome → u.state.frozen = true)

def State.UnitsKept (s : State) : Prop := ∀ b, (s.units.get b).Kept

/-! ### The Onset Refiner (R89, R91, R94, R95) -/

/-- A lane scans while its stored window is short of L, and resolves a whole window for at most four slot writes. -/
def Lane.Kept : Lane → Prop
  | .free => True
  | .waiting _ => True
  | .scanning r w => w.length < r.length
  | .resolving r w k => w.length = r.length ∧ k ≤ Config.resolutionWrites

/-- The lanes are kept and the launch queue holds at most six requests. -/
def State.RefinerKept (s : State) : Prop :=
  (∀ l, (s.refiner.lanes.get l).Kept) ∧ s.refiner.queue.length ≤ Config.queueDepth

/-! ### The fetch engines (section 10.4) -/

/-- A fetch engine's counts lie in their ranges, and it is READY exactly when its fetch is read whole. -/
def FetchEngine.Kept : FetchEngine → Prop
  | .idle => True
  | .filling f => f.count ≤ Config.fetchMax ∧ f.buffer.length < f.count ∧ f.returned ≤ f.buffer.length
  | .ready f => f.count ≤ Config.fetchMax ∧ f.buffer.length = f.count ∧ f.returned < f.count

def State.EnginesKept (s : State) : Prop := ∀ p, (s.ports.get p).engine.Kept

/-! ### The Pick List and the Reader Contexts (R120, R129, R133, R138, R139, R154) -/

/-- The list holds at most 64 records, no two of one serial, and its near-full flag is set below 56 records and clear
from 48 on, with one or the other between. -/
def State.ListKept (s : State) : Prop :=
  s.list.records.length ≤ Config.listDepth
    ∧ (s.list.records.map Record.serial).Nodup
    ∧ (s.list.nearFullArmed = true → s.list.records.length < Config.nearFullAt)
    ∧ (s.list.nearFullArmed = false → Config.nearFullRearm ≤ s.list.records.length)

/-- A detached reader has no mark and an empty sequence; a sequence holds at most 16 serials, none twice, each of a
released record present that its reader has not confirmed. -/
def State.ReadersKept (s : State) : Prop :=
  ∀ p,
    ((s.readers.get p).attached = false →
      (s.readers.get p).delivered = [] ∧ ∀ r ∈ s.list.records, r.marks.get p = false)
    ∧ (s.readers.get p).delivered.length ≤ Config.windowDepth
    ∧ (s.readers.get p).delivered.Nodup
    ∧ ∀ v ∈ (s.readers.get p).delivered,
        ∃ r ∈ s.list.records, r.serial = v ∧ r.released = true ∧ r.marks.get p = false

/-- A reader's backlog armed flag is set exactly while its backlog is below its threshold. -/
def State.BacklogsKept (s : State) : Prop :=
  ∀ p, (s.readers.get p).armed = decide (s.backlog p < (s.readers.get p).threshold)

/-! ### Requests in flight (R78, R88, R93, R96, R101) -/

/-- The age of an index: how many slots before the newest index it lies (R1). -/
def State.age (s : State) (i : Index) : Nat := distance i s.newestOr

/-- A request in flight carries the holdback in force. Its trigger lies at least 16 slots after its window start and
before the newest slot, its window holds 16 to 512 slots, and its deadline comes after the newest slot, or is that slot
while its expiry is owed. -/
def State.RequestKept (s : State) (r : Request) : Prop :=
  r.deadline = r.ws + BitVec.ofNat 32 s.settings.station.holdback
    ∧ 16 ≤ distance r.ws r.trigger ∧ distance r.ws r.trigger < s.age r.ws
    ∧ s.age r.ws ≤ s.settings.station.holdback
    ∧ (s.owed.refiner ≠ .expiry → s.age r.ws < s.settings.station.holdback)
    ∧ 16 ≤ r.length ∧ r.length ≤ 512

/-- The window end of a request has been written. -/
def State.EndWritten (s : State) (r : Request) : Prop := distance r.ws r.windowEnd ≤ s.age r.ws

/-- A confirmation that began at an index has run for `count` slots of a band, and has come to its length only while the
band's handling is owed. -/
def State.Confirming (s : State) (b : Band) (start : Index) (count : Nat) : Prop :=
  s.age start = count ∧ count ≤ (s.units.get b).profile.confirmLen
    ∧ (s.owed.units.get b = false → count < (s.units.get b).profile.confirmLen)

/-- The confirmations of a band have run for as many slots as their counts say, and every request of the band in flight
triggered before a running stacked confirmation began. -/
def State.ConfirmationsKept (s : State) (b : Band) : Prop :=
  (∀ a, (s.units.get b).state = .pending → (s.units.get b).tOn = some a →
      s.Confirming b a (s.units.get b).confirmCount)
    ∧ ∀ t2, (s.units.get b).state = .declared → (s.units.get b).tOn2 = some t2 →
        s.Confirming b t2 (s.units.get b).stackCount
          ∧ ∀ r, s.InFlight r → r.band = b → s.age t2 < s.age r.trigger

/-- Every request in flight is kept; a lane that scans or resolves does so once its window end is written; the
confirmations are kept; and before the first slot nothing is owed, confirmed or in flight. -/
def State.RequestsKept (s : State) : Prop :=
  (∀ r, s.InFlight r → s.RequestKept r)
    ∧ (∀ l r w, s.refiner.lanes.get l = .scanning r w → s.EndWritten r)
    ∧ (∀ l r w k, s.refiner.lanes.get l = .resolving r w k → s.EndWritten r)
    ∧ (∀ b, s.ConfirmationsKept b)
    ∧ (s.ring.newest = none →
        s.owed = Owed.nothing ∧ (∀ r, ¬ s.InFlight r) ∧ ∀ b, (s.units.get b).state.frozen = false)

/-! ### List order (R121, R125, R126, R132) -/

/-- One record stands rightly before another: its key is earlier or equal, and it is released if the other is. -/
def Record.Before (x y : Record) : Prop :=
  (x.key = y.key ∨ earlier x.key y.key = true) ∧ (y.released = true → x.released = true)

/-- Every pair of records stands in list order, the released before the held; no key is at the age limit but while the
retirement at the newest slot is owed; and whatever is still to be handed over for a request in flight has a later key
than every released record. -/
def State.InListOrder (s : State) : Prop :=
  s.list.records.Pairwise Record.Before
    ∧ (∀ r ∈ s.list.records, s.age r.key ≤ 2147483647 ∧ (s.owed.list ≠ .retire → s.age r.key < 2147483647))
    ∧ (∀ x ∈ s.list.records, x.released = true →
        640 ≤ s.age x.key ∧ ∀ r, s.InFlight r → s.age r.ws ≤ s.age x.key)
    ∧ (s.owed.list = .release → s.list.holdback = s.settings.station.holdback)
    ∧ (s.ring.newest = none → s.list.records = [])

/-! ### Averages and energies (R47, R49, R58) -/

/-- The largest STA or LTA (R58). -/
def averageTop : Nat := 256 * Config.energyTop

/-- A fast and a slow average lie in the range of the targets (R47). -/
def AveragePair.Kept (q : AveragePair) : Prop :=
  (-2147483648 ≤ q.fast ∧ q.fast ≤ 2147483392) ∧ (-2147483648 ≤ q.slow ∧ q.slow ≤ 2147483392)

/-- Every average of the filters and of the units lies in its range, and no slot of the ring has a vertical energy
above its energy. -/
def State.AveragesKept (s : State) : Prop :=
  (∀ b, ((s.filters.get b).z.Kept ∧ (s.filters.get b).n.Kept ∧ (s.filters.get b).e.Kept))
    ∧ (∀ b, (s.units.get b).sta ≤ averageTop ∧ (s.units.get b).lta ≤ averageTop
        ∧ (s.units.get b).staMin ≤ averageTop
        ∧ (∀ x, (s.units.get b).frozenLta = some x → x ≤ averageTop)
        ∧ (∀ x, (s.units.get b).heldMin = some x → x ≤ averageTop))
    ∧ (∀ c ∈ s.ring.cells, ∀ b, (c.2.vertical.get b).toNat ≤ (c.2.energy.get b).toNat)

end Sys2Proof.Machine
end

