-- ==== Sys2Proof/Certificates/Slice0/Obligations.lean ====
section
/-! DEFINITION. The statements for the provers: what the part and its commands do, by the numbered rules. -/

open Sys2Proof Sys2Proof.Machine

/-! ### The machine -/

/-- A step executes the command at the front of the queue on the queue's rest. On an empty queue it answers a next
state whose queue is empty: what the part does of its own accord then is the model's choice (notes/assumptions/2.md). -/
def Obligations.StepRunsTheFrontCommand : Prop :=
  (∀ (c : Instr) (rest : List Instr) (s : State), s.pending = c :: rest →
    step s = exec c { s with pending := rest })
  ∧ ∀ s : State, s.pending = [] → ∃ t, step s = .next t ∧ t.pending = []

/-- No command adds to the queue of waiting commands or takes from it. A term that is a command of its row completes in
every state; a term that is not is refused by name (the model's choice, notes/assumptions/16.md). -/
def Obligations.CommandsCompleteAndKeepTheQueue : Prop :=
  (∀ (c : Instr) (s t : State), exec c s = .next t → t.pending = s.pending)
  ∧ ∀ (c : Instr) (s : State),
    (c.wellFormed = true → ∃ t, exec c s = .next t)
    ∧ (c.wellFormed = false → ∃ m, exec c s = .refused (.illFormed m))

/-- R172, R174, R190: the bits of every well-formed port command spell that command again; and whatever bits a
transaction shifts in, they spell one well-formed command of that port, and the command's bits are those. A byte travels
most significant bit first. R190: the first byte of each request, and the mode bytes of ATTACH. R157, R162, R190: the
order in which the fields of a profile and of the station settings are sent; which byte names which band; and which bit
of a content mask enables which band. -/
def Obligations.TransactionBitsSpellTheirCommand : Prop :=
  (∀ (c : Instr) (p : Port) (bits : List Bool), c.wellFormed = true →
    encodeTransaction c = some (p, bits) → decodeTransaction p bits = c)
  ∧ ∀ (p : Port) (bits : List Bool),
    ((decodeTransaction p bits).wellFormed = true
      ∧ encodeTransaction (decodeTransaction p bits) = some (p, bits))
    ∧ bitsOfByte 0x12 = [false, false, false, true, false, false, true, false]
    ∧ encodeTransaction (.identify p bits) = some (p, bitsOfByte 0x01 ++ bits)
    ∧ encodeTransaction (.status p bits) = some (p, bitsOfByte 0x02 ++ bits)
    ∧ encodeTransaction (.attachAll p bits) = some (p, bitsOfByte 0x10 ++ (bitsOfByte 0x01 ++ bits))
    ∧ encodeTransaction (.attachFromNow p bits) = some (p, bitsOfByte 0x10 ++ (bitsOfByte 0x02 ++ bits))
    ∧ encodeTransaction (.attachUnknownMode p bits) = some (p, bitsOfByte 0x10 ++ bits)
    ∧ encodeTransaction (.detach p bits) = some (p, bitsOfByte 0x11 ++ bits)
    ∧ encodeTransaction (.take p bits) = some (p, bitsOfByte 0x12 ++ bits)
    ∧ encodeTransaction (.confirm p bits) = some (p, bitsOfByte 0x13 ++ bits)
    ∧ encodeTransaction (.rewind p bits) = some (p, bitsOfByte 0x14 ++ bits)
    ∧ encodeTransaction (.fetch p bits) = some (p, bitsOfByte 0x20 ++ bits)
    ∧ encodeTransaction (.readFetch p bits) = some (p, bitsOfByte 0x21 ++ bits)
    ∧ encodeTransaction (.getProfile p bits) = some (p, bitsOfByte 0x30 ++ bits)
    ∧ encodeTransaction (.setProfile p bits) = some (p, bitsOfByte 0x31 ++ bits)
    ∧ encodeTransaction (.getStation p bits) = some (p, bitsOfByte 0x32 ++ bits)
    ∧ encodeTransaction (.setStation p bits) = some (p, bitsOfByte 0x33 ++ bits)
    ∧ encodeTransaction (.setPort p bits) = some (p, bitsOfByte 0x34 ++ bits)
    ∧ encodeTransaction (.start p bits) = some (p, bitsOfByte 0x40 ++ bits)
    ∧ encodeTransaction (.stop p bits) = some (p, bitsOfByte 0x41 ++ bits)
    ∧ encodeTransaction (.getAnchor p bits) = some (p, bitsOfByte 0x50 ++ bits)
    ∧ encodeTransaction (.portReset p bits) = some (p, bitsOfByte 0x5A ++ bits)
    ∧ (∀ code, encodeTransaction (.unknownRequest p code bits) = some (p, bitsOfByte code ++ bits))
    ∧ encodeTransaction (.emptyTransaction p bits) = some (p, bits)
    ∧ (∀ x : Profile, profileWords x =
        [x.fastShift, x.slowShift, x.staShift, x.ltaShift, x.on, x.off, x.jump, x.confirmLen, x.ltaFloor, x.warmLen,
         x.maxDur, x.deadLen, x.pre, x.post, x.margin, x.polLen, x.ampLen, x.pThresh, x.sThresh])
    ∧ (∀ x : Station, stationWords x =
        [x.holdback, x.launches, x.span, x.gapLimit, x.fps, x.holdoverLimit, x.linkDivider])
    ∧ (∀ (v : Byte) (b : Band), bandOfByte v = some b ↔ v = BitVec.ofNat 8 ([Band.b0, .b1, .b2].idxOf b))
    ∧ (∀ v : Byte, contentMask v = { b0 := v.getLsbD 0, b1 := v.getLsbD 1, b2 := v.getLsbD 2 })

/-- R175, R188: while RESET is asserted a port disregards select, shifts out 0 and executes nothing. Otherwise a port
command finishes a handling that has begun. It settles nothing else: where none has begun, what is owed, the frame and
its slots in hand, the clock, the ring, the timing state and the units and the refiner are as before it. SET PROFILE,
SET STATION, START and STOP alone take what is owed to the newest slot write first; of these, only a SET STATION that
names another divider, accepted or BUSY, also takes a frame judged before it (what settles what is the model's choice,
notes/assumptions/3.md). -/
def Obligations.PortCommandsStandBetweenEvents : Prop :=
  (∀ (c : Instr) (p : Port) (bits : List Bool) (s : State), c.wellFormed = true →
    encodeTransaction c = some (p, bits) → s.resetHeld = true →
    exec c s =
      .next (s.setPort p
        { s.ports.get p with selected := false, dout := List.replicate bits.length false }))
  ∧ (∀ (p : Port) (clocks : Nat) (held : Bool) (s : State), s.resetHeld = true →
    exec (.lockedOutSelect p clocks held) s =
      .next (s.setPort p
        { s.ports.get p with selected := held, dout := List.replicate clocks false }))
  ∧ (∀ (c : Instr) (p : Port) (bits : List Bool) (s : State),
    encodeTransaction c = some (p, bits) → s.resetHeld = false → exec c (finishBegun s) = exec c s)
  ∧ (∀ s : State, (finishBegun s).NothingBegun ∧ (s.NothingBegun → finishBegun s = s))
  ∧ (∀ (c : Instr) (p : Port) (bits : List Bool) (s t : State), encodeTransaction c = some (p, bits) →
    (∀ rest, c ≠ .setProfile p rest ∧ c ≠ .setStation p rest ∧ c ≠ .start p rest ∧ c ≠ .stop p rest) →
    s.NothingBegun → exec c s = .next t →
    t.owed = s.owed ∧ t.intake = s.intake ∧ t.clock.now = s.clock.now ∧ t.clock.grantFrom = s.clock.grantFrom
      ∧ t.ring = s.ring ∧ t.tmu = s.tmu ∧ t.filters = s.filters ∧ t.units = s.units ∧ t.refiner = s.refiner
      ∧ t.settings = s.settings)
  ∧ (∀ (c : Instr) (p : Port) (rest : List Bool) (s t : State),
    c = .setProfile p rest ∨ c = .start p rest ∨ c = .stop p rest → exec c s = .next t →
    t.intake = s.intake ∧ t.clock = s.clock ∧ t.ring = s.ring)
  ∧ (∀ (p : Port) (rest : List Bool) (s : State), s.resetHeld = false →
    exec (.start p rest) (settleOwed s) = exec (.start p rest) s
    ∧ exec (.stop p rest) (settleOwed s) = exec (.stop p rest) s
    ∧ (312 ≤ rest.length → exec (.setProfile p rest) (settleOwed s) = exec (.setProfile p rest) s)
    ∧ ∀ (written : Station) (more : List Bool), (∀ x ∈ stationWords written, x < 65536) →
      rest = bitsOfBytes ((stationWords written).flatMap
        fun x => [BitVec.ofNat 8 (x / 256), BitVec.ofNat 8 x]) ++ more →
      (min written.linkDivider 255 = s.settings.station.linkDivider →
        exec (.setStation p rest) (settleOwed s) = exec (.setStation p rest) s)
      ∧ (min written.linkDivider 255 ≠ s.settings.station.linkDivider →
        exec (.setStation p rest) (settle s) = exec (.setStation p rest) s))
  ∧ ∀ s : State, (settleOwed s).owed = Owed.nothing ∧ (settle s).Settled ∧ (s.Settled → settle s = s)

/-! ### Conditions that every step keeps -/

/-- R13, R35, R36, R40: after every step the ring's positions, its written count, the newest and the next index and the
interval's budget stand as the rules give them. -/
def Obligations.RingKeptByEveryStep : Prop :=
  ∀ s t : State, s.RingKept → step s = .next t → t.RingKept

/-- R157, R162, R167: no step brings a setting out of its range. -/
def Obligations.SettingsLegalAfterEveryStep : Prop :=
  ∀ s t : State, s.SettingsLegal → step s = .next t → t.SettingsLegal

/-- Section 1.5, R12: every step leaves the expected counter, the timers and the last good sample as the link state
asks. -/
def Obligations.LinkKeptByEveryStep : Prop :=
  ∀ s t : State, s.LinkKept → step s = .next t → t.LinkKept

/-- R53, R54, R62, R116: while the core is STOPPED the bands are OFF, the averages 0 and the refiner empty, after every
step. R59, R66, R73, R83: what each Trigger Unit holds agrees with its state after every step. -/
def Obligations.CoreAndUnitsKeptByEveryStep : Prop :=
  (∀ s t : State, s.CoreKept → step s = .next t → t.CoreKept)
  ∧ ∀ s t : State, s.CoreKept → s.UnitsKept → step s = .next t → t.UnitsKept

/-- R89, R94, R95, R184, R185: the lanes, the launch queue and the fetch engines' counts stay within their bounds
through every step. R66, R73, R78, R93, R94, R96, R101: so do the requests in flight, which carry the holdback in force
and are gone once their deadline's slot write is handled; the windows that are read, whose end is written; and the
confirmations, which began as many slots ago as they count. -/
def Obligations.RefinerAndEnginesKeptByEveryStep : Prop :=
  (∀ s t : State, s.RefinerKept → step s = .next t → t.RefinerKept)
  ∧ (∀ s t : State, s.EnginesKept → step s = .next t → t.EnginesKept)
  ∧ ∀ s t : State, s.RingKept → s.SettingsLegal → s.CoreKept → s.UnitsKept → s.RefinerKept → s.RequestsKept →
      step s = .next t → t.RequestsKept

/-- R120, R129, R133: after every step the list holds at most 64 records, no two of one serial, and its near-full flag
agrees with its count. R154: after every step each backlog armed flag is set exactly while the backlog is below the
threshold. R121, R125, R126, R132: after every step every pair of records stands in list order, with every released
record before every held one, and no key is older than the age limit lets it be. -/
def Obligations.ListAndBacklogsKeptByEveryStep : Prop :=
  (∀ s t : State, s.ListKept → step s = .next t → t.ListKept)
  ∧ (∀ s t : State, s.SettingsLegal → s.BacklogsKept → step s = .next t → t.BacklogsKept)
  ∧ ∀ s t : State, s.RingKept → s.SettingsLegal → s.CoreKept → s.UnitsKept → s.RefinerKept → s.RequestsKept →
      s.InListOrder → step s = .next t → t.InListOrder

/-- R138, R139: after every step each delivered sequence names released records present that its reader has not
confirmed, and a detached reader has neither sequence nor marks. -/
def Obligations.ReadersKeptByEveryStep : Prop :=
  ∀ s t : State, s.ListKept → s.ReadersKept → step s = .next t → t.ReadersKept

/-- R47, R49, R58: after every step the averages lie in their ranges, and no stored vertical energy exceeds its
energy. -/
def Obligations.AveragesKeptByEveryStep : Prop :=
  ∀ s t : State, s.AveragesKept → step s = .next t → t.AveragesKept

/-! ### Power -/

/-- POWER_ON, RESET asserted and RESET released each leave every block in the reset state of its chapter (R22, R33,
R44, R57, R87, R117, R137, R156, R171, R188), which meets every condition the steps keep. The station settings and the
band profiles have the defaults of R162 and R157. Asserted, RESET abandons the transactions in progress; released, it
sets a port's lock-out when its select stands asserted. Commands that wait stay waiting. The values that no chapter
gives, that the line pin keeps its level, and what select does at POWER_ON, are the model's (notes/assumptions/10.md
and 18.md). -/
def Obligations.PowerOnAndResetLeaveTheResetState : Prop :=
  (∀ s : State, exec .powerOn s = .next { State.reset with pending := s.pending })
  ∧ (∀ (s : State) (a b : Option (List Bool)), ∃ t, exec (.reset (.asserted a b)) s = .next t
      ∧ t = { State.reset with
          intake := { State.reset.intake with line := s.intake.line }
          ports := t.ports, resetHeld := true, pending := s.pending }
      ∧ ∀ (p : Port) (bits : Option (List Bool)), bits = (match p with | .a => a | .b => b) →
        t.ports.get p =
          { PortInterface.reset with
            selected := (s.ports.get p).selected || bits.isSome, dout := (t.ports.get p).dout }
        ∧ t.attention p = false
        ∧ (bits = none → (t.ports.get p).dout = [])
        ∧ ∀ x, bits = some x →
          (t.ports.get p).dout =
            if (s.ports.get p).lockOut then List.replicate x.length false
            else shiftOut (s.ports.get p).response x.length)
  ∧ (∀ (s : State) (a b : Bool), exec (.reset (.released a b)) s =
      .next { State.reset with
        intake := { State.reset.intake with line := s.intake.line }
        ports :=
          { a := { PortInterface.reset with selected := a, lockOut := a }
            b := { PortInterface.reset with selected := b, lockOut := b } }
        pending := s.pending })
  ∧ (State.reset.Settled ∧ State.reset.RingKept ∧ State.reset.SettingsLegal ∧ State.reset.LinkKept
    ∧ State.reset.CoreKept ∧ State.reset.UnitsKept ∧ State.reset.RefinerKept ∧ State.reset.EnginesKept
    ∧ State.reset.ListKept ∧ State.reset.ReadersKept ∧ State.reset.BacklogsKept ∧ State.reset.AveragesKept
    ∧ State.reset.RequestsKept ∧ State.reset.InListOrder)
  ∧ State.reset.intake.link = .searching ∧ State.reset.intake.nextIndex = 0
  ∧ State.reset.intake.receiver.busy = none ∧ State.reset.intake.assembler = .hunting
  ∧ State.reset.intake.expected = none ∧ State.reset.intake.lastGood = none
  ∧ State.reset.intake.linkTimer = none ∧ State.reset.intake.gapSlotTimer = none
  ∧ State.reset.intake.gapRun = 0
  ∧ State.reset.settings.station =
      { holdback := 800, launches := 3, span := 100, gapLimit := 40, fps := 200, holdoverLimit := 300, linkDivider := 3 }
  ∧ State.reset.tmu = { timing := .none, latest := none, previous := none, holdover := 0 }
  ∧ State.reset.ring =
      { cells := [], newest := none, written := 0, laneReads := 0, fetchReads := 0, lastServed := none }
  ∧ (∀ b, State.reset.filters.get b = Comps.all { fast := 0, slow := 0 })
  ∧ (∀ b, State.reset.units.get b =
      { state := .off, sta := 0, lta := 0, frozenLta := none, staMin := 0, heldMin := none, tOn := none, tOn2 := none
        warmCount := 0, deadCount := 0, confirmCount := 0, stackCount := 0, rewarm := false, episode := 255, stack := 0
        profile := Profile.default b, generation := 0, staged := none })
  ∧ (∀ (b : Band) (i : Nat), i = [Band.b0, .b1, .b2].idxOf b → Profile.default b =
      { fastShift := [4, 2, 1].getD i 0, slowShift := [7, 5, 3].getD i 0, staShift := [5, 4, 3].getD i 0
        ltaShift := [10, 9, 8].getD i 0, on := 48, off := 24, jump := 40, confirmLen := 8, ltaFloor := 64
        warmLen := 2000, maxDur := 12000, deadLen := 100, pre := 128, post := 128, margin := 512, polLen := 32
        ampLen := 64, pThresh := 170, sThresh := 85 })
  ∧ State.reset.refiner = { queue := [], lanes := Lanes.all .free, history := [] }
  ∧ State.reset.list =
      { records := [], nextSerial := 0, holdback := 800, newestTaken := none, nearFullArmed := true }
  ∧ (∀ p, State.reset.readers.get p = { attached := false, delivered := [], threshold := 8, armed := true })
  ∧ State.reset.settings.core = .stopped ∧ State.reset.settings.generation = 0
  ∧ (∀ p, (State.reset.ports.get p).response = .nothing ∧ (State.reset.ports.get p).lockOut = false
      ∧ (State.reset.ports.get p).notices = 0
      ∧ (State.reset.ports.get p).mask = 255 ∧ (State.reset.ports.get p).engine = .idle)

/-! ### Arithmetic -/

/-- R9: the check byte is the shift register's content after the bytes' bits, most significant first, from 0; and the
computation continued over a thirteenth byte leaves 0 exactly when that byte is the check. -/
def Obligations.CheckByteFollowsItsRule : Prop :=
  (∀ bs : List Byte, crc8 bs = (bitsOfBytes bs).foldl crcShift 0)
  ∧ (∀ (bs : List Byte) (c : Byte), crc8 (bs ++ [c]) = 0 ↔ crc8 bs = c)
  ∧ crc8 (List.replicate 11 0) = 0
  ∧ crc8 [0x01] = 0x07

/-- R5: a waiting receiver takes a byte from its ten bit times, with a framing fault when the stop bit is low; it
abandons a start that is high again at the middle of the start bit; and it takes a break for one byte of 0 with a
fault. -/
def Obligations.ReceiverTakesBytes : Prop :=
  (∀ (v : Byte) (stop : Bool),
    rxLine (lineOfByte v stop) { last := true, busy := none } [] =
      ({ last := stop, busy := none }, [{ value := v, fault := !stop }]))
  ∧ (∀ n m : Nat, 1 ≤ n → n ≤ 8 → 9 ≤ n + m →
    rxLine [(false, n), (true, m)] { last := true, busy := none } [] =
      ({ last := true, busy := none }, []))
  ∧ (∀ n : Nat, 153 ≤ n →
    rxLine [(false, n)] { last := true, busy := none } [] =
      ({ last := false, busy := none }, [{ value := 0, fault := true }]))

/-- R46, R58: one update moves an average from x towards its target t to x + ⌊(t − x) / 2^k⌋; so to a value between the
two, by at least 1 from above, not at all from below by less than 2^k, and with k = 0 to the target. A filter pair moves
both its averages towards 256 times the raw value, each by its own shift. R48: the band-passed value is ⌊(F − G) / 256⌋
saturated to a sample's range. R49: v_b and e_b are the floored quotients saturated at 2^32 − 1, v_b at most e_b. R50:
a band contributes to ESAT exactly when a value of it was saturated, which is when its e_b was. -/
def Obligations.AveragesAndEnergiesFollowTheirRules : Prop :=
  (∀ (k : Nat) (x t : Int), approach k x t = x + (t - x) / 2 ^ k)
  ∧ (∀ (k : Nat) (x t : Int), x ≤ t → x ≤ approach k x t ∧ approach k x t ≤ t)
  ∧ (∀ (k : Nat) (x t : Int), t < x → t ≤ approach k x t ∧ approach k x t < x)
  ∧ (∀ (k : Nat) (x t : Int), x ≤ t → t - x < 2 ^ k → approach k x t = x)
  ∧ (∀ x t : Int, approach 0 x t = t)
  ∧ (∀ (p : Profile) (x : Sample) (q : AveragePair),
      filterPair p x q =
        { fast := q.fast + (256 * x.toInt - q.fast) / 2 ^ p.fastShift
          slow := q.slow + (256 * x.toInt - q.slow) / 2 ^ p.slowShift })
  ∧ (∀ q : AveragePair, passed q = max (-8388608) (min 8388607 ((q.fast - q.slow) / 256)))
  ∧ (∀ c : Comps AveragePair,
      (bandVertical c).toNat ≤ (bandEnergy c).toNat
      ∧ (bandEnergy c).toNat = min ((passed c.z ^ 2 + passed c.n ^ 2 + passed c.e ^ 2) / 256).toNat 4294967295
      ∧ (bandVertical c).toNat = min (passed c.z ^ 2 / 256).toNat 4294967295
      ∧ (bandSaturates c = true ↔
          4294967295 < (passed c.z ^ 2 + passed c.n ^ 2 + passed c.e ^ 2) / 256)
      ∧ ((passed c.z ≠ (c.z.fast - c.z.slow) / 256 ∨ passed c.n ≠ (c.n.fast - c.n.slow) / 256
          ∨ passed c.e ≠ (c.e.fast - c.e.slow) / 256) → bandSaturates c = true))

/-- R3: the refiner's logarithm. R105, R106: the score of every candidate; k* is the smallest candidate of the least
score, and the onset is ws + k*. -/
def Obligations.BestCandidateIsTheEarliestLeast : Prop :=
  (lg 0 = 0
    ∧ (∀ p v : Nat, 2 ^ p ≤ v → v < 2 ^ (p + 1) → lg v = 256 * p + 256 * (v - 2 ^ p) / 2 ^ p)
    ∧ (∀ v : Nat, 1 ≤ v → lg (2 * v) = lg v + 256)
    ∧ (∀ v : Nat, v < 2 ^ 32 → lg v ≤ 8191)
    ∧ lg 1000 = 2548)
  ∧ (∀ (w : List WindowSlot) (k : Nat), 8 ≤ k → k ≤ w.length - 8 →
    score w k = k * lg (sumEnergy (w.take k) / k)
      + (w.length - k) * lg (sumEnergy (w.drop k) / (w.length - k)))
  ∧ (∀ (w : List WindowSlot) (k : Nat), w.length ≤ 512 → 8 ≤ k → k ≤ w.length - 8 → score w k ≤ 4193792)
  ∧ ∀ (r : Request) (w : List WindowSlot), 16 ≤ w.length →
      8 ≤ bestCandidate w ∧ bestCandidate w ≤ w.length - 8
      ∧ (∀ k, 8 ≤ k → k ≤ w.length - 8 →
          score w (bestCandidate w) ≤ score w k
          ∧ (score w k = score w (bestCandidate w) → bestCandidate w ≤ k))
      ∧ refinedKey r w = r.ws + BitVec.ofNat 32 (bestCandidate w)

/-- R107: the width spans the admitted candidates, and the class follows from it. R108, R109: the vertical fraction is
absent over fewer than 4 slots or no energy, lies in 0 … 255 otherwise, and gives the phase by the thresholds. -/
def Obligations.WidthClassAndPhaseFollowTheirRules : Prop :=
  (∀ (w : List WindowSlot) (margin : Nat), 16 ≤ w.length →
    ∃ lo hi, spreadWidth w margin = hi - lo
      ∧ 8 ≤ lo ∧ lo ≤ bestCandidate w ∧ bestCandidate w ≤ hi ∧ hi ≤ w.length - 8
      ∧ score w lo ≤ score w (bestCandidate w) + margin ∧ score w hi ≤ score w (bestCandidate w) + margin
      ∧ ∀ k, 8 ≤ k → k ≤ w.length - 8 → score w k ≤ score w (bestCandidate w) + margin → lo ≤ k ∧ k ≤ hi)
  ∧ (∀ n : Nat,
      (n ≤ 2 → uncertaintyClass n = 0) ∧ (3 ≤ n ∧ n ≤ 8 → uncertaintyClass n = 1)
      ∧ (9 ≤ n ∧ n ≤ 32 → uncertaintyClass n = 2) ∧ (33 ≤ n → uncertaintyClass n = 3))
  ∧ (∀ span : List WindowSlot, span.length < 4 ∨ sumEnergy span = 0 → verticalFraction span = none)
  ∧ (∀ span : List WindowSlot, 4 ≤ span.length → sumEnergy span ≠ 0 →
      (∀ x ∈ span, x.vertical.toNat ≤ x.energy.toNat) →
      ∃ vf, verticalFraction span = some vf ∧ vf = 255 * sumVertical span / sumEnergy span ∧ vf ≤ 255)
  ∧ (∀ (f : RefineFields) (vf : Nat), f.sThresh < f.pThresh →
      phaseOf f none = .x
      ∧ (phaseOf f (some vf) = .p ↔ f.pThresh ≤ vf)
      ∧ (phaseOf f (some vf) = .s ↔ vf ≤ f.sThresh))

/-- R157, R158: clamping takes a value to the nearest bound of its range; each field of a profile is clamped in the
order of R157, a bound that depends on an earlier field on that field as clamped, so that the result is legal, and a
legal profile is left as it is. R162, R163: the same for the station settings. -/
def Obligations.ClampingGivesLegalSettings : Prop :=
  (∀ lo hi v : Nat, lo ≤ hi →
    (v < lo → clamp lo hi v = lo) ∧ (lo ≤ v → v ≤ hi → clamp lo hi v = v) ∧ (hi < v → clamp lo hi v = hi))
  ∧ (∀ p q : Profile, q = clampProfile p →
      q =
        { fastShift := min p.fastShift 6
          slowShift := max (q.fastShift + 1) (min p.slowShift 12)
          staShift := max 1 (min p.staShift 8)
          ltaShift := max (q.staShift + 2) (min p.ltaShift 14)
          on := max 17 (min p.on 255)
          off := max 16 (min p.off (q.on - 1))
          jump := max 17 (min p.jump 255)
          confirmLen := max 1 (min p.confirmLen 64)
          ltaFloor := max 1 (min p.ltaFloor 65535)
          warmLen := min p.warmLen 65535
          maxDur := max 256 (min p.maxDur 65535)
          deadLen := min p.deadLen 4095
          pre := max 16 (min p.pre 256)
          post := max 16 (min p.post 256)
          margin := min p.margin 4095
          polLen := max 4 (min p.polLen q.post)
          ampLen := max 4 (min p.ampLen q.post)
          pThresh := max 129 (min p.pThresh 255)
          sThresh := min p.sThresh 127 }
      ∧ q.Legal ∧ (p.Legal → q = p))
  ∧ (∀ t : Station,
      clampStation t =
        { holdback := max 640 (min t.holdback 4096)
          launches := max 1 (min t.launches 4)
          span := max 1 (min t.span 1000)
          gapLimit := max 1 (min t.gapLimit 1000)
          fps := max 20 (min t.fps 500)
          holdoverLimit := max 1 (min t.holdoverLimit 3600)
          linkDivider := min t.linkDivider 255 }
      ∧ (clampStation t).Legal ∧ (t.Legal → clampStation t = t))

/-! ### The Pick List -/

/-- R120 to R122: a record handed to a list that is not full is inserted held, with both marks clear and the first
serial from the next serial on that no record present carries, after every record whose key is earlier or equal. Where
the list stands in list order, with every key less than 2^31 slots before one index (R121, R126), every record after
it has a later key, and the list stands in list order with it. R133: the 56th record, where the near-full flag is set,
clears it and raises NEAR_FULL on both ports. Nothing else changes: no reader, no other notice, no other block. -/
def Obligations.InsertionPlacesARecord : Prop :=
  ∀ (key : Index) (d : Detail) (s : State), s.ListKept → s.list.records.length < 64 →
    ∃ (before after : List Record) (r : Record),
      s.list.records = before ++ after
      ∧ (insertRecord key d s).list.records = before ++ r :: after
      ∧ r.key = key ∧ r.detail = d ∧ r.released = false ∧ (∀ p, r.marks.get p = false)
      ∧ (∀ x ∈ before, earlier key x.key = false)
      ∧ (∀ x, after.head? = some x → earlier key x.key = true)
      ∧ (∀ n : Index, (n - key).toNat < 2147483648 →
          (∀ x ∈ s.list.records, (n - x.key).toNat < 2147483648) →
          s.list.records.Pairwise (fun x y => x.key = y.key ∨ earlier x.key y.key = true) →
          (∀ x ∈ after, earlier key x.key = true)
          ∧ (before ++ r :: after).Pairwise (fun x y => x.key = y.key ∨ earlier x.key y.key = true))
      ∧ (∀ x ∈ s.list.records, x.serial ≠ r.serial)
      ∧ ((∀ x ∈ s.list.records, x.serial ≠ s.list.nextSerial) → r.serial = s.list.nextSerial)
      ∧ (∃ k : Nat, k < 64 ∧ r.serial = s.list.nextSerial + BitVec.ofNat 16 k
          ∧ ∀ j, j < k → ∃ x ∈ s.list.records, x.serial = s.list.nextSerial + BitVec.ofNat 16 j)
      ∧ (insertRecord key d s).list.nextSerial = r.serial + 1
      ∧ (s.list.nearFullArmed = true → s.list.records.length = 55 →
          (insertRecord key d s).list.nearFullArmed = false
          ∧ (∀ p, (insertRecord key d s).Noticed .nearFull p)
          ∧ insertRecord key d s = raise .nearFull .b (raise .nearFull .a
              { s with list := { s.list with
                  records := before ++ r :: after, nextSerial := r.serial + 1, nearFullArmed := false } }))
      ∧ (s.list.nearFullArmed = false ∨ s.list.records.length ≠ 55 →
          insertRecord key d s =
            { s with list := { s.list with records := before ++ r :: after, nextSerial := r.serial + 1 } })

/-- R129, R130: a record handed to a full list evicts the head; an attached reader whose mark is clear on it gets LOST
and loses it from its sequence, and no other reader's sequence changes; both backlogs are then evaluated (R154). R120
to R122: the record is inserted as into a list that is not full: held, with both marks clear and the first serial from
the next serial on that no record left carries, after every record whose key is earlier or equal and, where the list
stands in list order, before every record whose key is later. The near-full flag stays as it is (R133). -/
def Obligations.FullListEvictsItsHead : Prop :=
  ∀ (key : Index) (d : Detail) (s t : State) (head : Record) (more : List Record),
    s.list.records = head :: more → more.length = 63 → s.ListKept → t = insertRecord key d s →
    t.list.records.length = 64 ∧ t.list.nearFullArmed = s.list.nearFullArmed
    ∧ t = { s with
        list := { s.list with records := t.list.records, nextSerial := t.list.nextSerial }
        readers := t.readers, ports := t.ports }
    ∧ (∀ p, t.ports.get p = { s.ports.get p with notices := (t.ports.get p).notices })
    ∧ (∃ (before after : List Record) (r : Record),
        more = before ++ after ∧ t.list.records = before ++ r :: after
        ∧ r.key = key ∧ r.detail = d ∧ r.released = false ∧ (∀ p, r.marks.get p = false)
        ∧ (∀ x ∈ before, earlier key x.key = false)
        ∧ (∀ x, after.head? = some x → earlier key x.key = true)
        ∧ (∀ n : Index, (n - key).toNat < 2147483648 → (∀ x ∈ more, (n - x.key).toNat < 2147483648) →
            more.Pairwise (fun x y => x.key = y.key ∨ earlier x.key y.key = true) →
            (∀ x ∈ after, earlier key x.key = true)
            ∧ (before ++ r :: after).Pairwise (fun x y => x.key = y.key ∨ earlier x.key y.key = true))
        ∧ (∀ x ∈ more, x.serial ≠ r.serial)
        ∧ ((∀ x ∈ more, x.serial ≠ s.list.nextSerial) → r.serial = s.list.nextSerial)
        ∧ (∃ k : Nat, k < 64 ∧ r.serial = s.list.nextSerial + BitVec.ofNat 16 k
            ∧ ∀ j, j < k → ∃ x ∈ more, x.serial = s.list.nextSerial + BitVec.ofNat 16 j)
        ∧ t.list.nextSerial = r.serial + 1)
    ∧ ∀ p,
        ((s.readers.get p).attached = true → head.marks.get p = false →
          t.Noticed .lost p
          ∧ t.readers.get p = ({ s.readers.get p with
              delivered := (s.readers.get p).delivered.erase head.serial } : Reader).evaluatedAt (t.backlog p)
          ∧ (t.ports.get p).notices =
              (s.readers.get p).noticesAt (t.backlog p) (noticeAdd .lost (s.ports.get p).notices))
        ∧ ((s.readers.get p).attached = false ∨ head.marks.get p = true →
          t.readers.get p = (s.readers.get p).evaluatedAt (t.backlog p)
          ∧ (t.ports.get p).notices =
              (s.readers.get p).noticesAt (t.backlog p) (s.ports.get p).notices
          ∧ noticeIn .lost (t.ports.get p).notices = noticeIn .lost (s.ports.get p).notices)

/-! ### Responses -/

/-- R173: a response is shifted out byte by byte from its first bit, then zeros. R191: the status byte of every
response, the responses of one, two and three bytes whole, the lengths of the longer ones, and the fields of IDENTIFY,
ATTACH, CONFIRM, REWIND, FETCH, SET PROFILE and SET STATION responses. -/
def Obligations.ResponsesBeginWithTheirStatus : Prop :=
  (∀ (r : Response) (n : Nat),
    (shiftOut r n).length = n
    ∧ wholeBytes (shiftOut r (8 * n)) = (r.bytes ++ List.replicate n 0).take n)
  ∧ Response.nothing.bytes = [0x00] ∧ Response.ok.bytes = [0x01] ∧ Response.adjusted.bytes = [0x02]
  ∧ Response.none.bytes = [0x03] ∧ Response.busy.bytes = [0x04] ∧ Response.badParam.bytes = [0x07]
  ∧ Response.notAttached.bytes = [0x08] ∧ Response.windowFull.bytes = [0x09]
  ∧ Response.notYet.bytes = [0x0B]
  ∧ (∀ code : Byte,
      (Response.unknown code).bytes = [0x05, code] ∧ (Response.short code).bytes = [0x06, code])
  ∧ (∀ (n : Notice) (more : Bool),
      (Response.identified n more).bytes = [0x01, BitVec.ofNat 8 n.number, if more then 1 else 0])
  ∧ (∀ n : Nat, (Response.attached n).bytes = [0x01, BitVec.ofNat 8 n]
      ∧ (Response.counted n).bytes = [0x01, BitVec.ofNat 8 n])
  ∧ ((Response.gone none).bytes = 0x0A :: List.replicate 9 0
      ∧ (Response.notYetHeld none).bytes = 0x0B :: List.replicate 9 0)
  ∧ (∀ (oldest newest : Index) (bs : List Byte) (status : Nat),
      (bs = (Response.gone (some (oldest, newest))).bytes ∧ status = 10)
        ∨ (bs = (Response.notYetHeld (some (oldest, newest))).bytes ∧ status = 11) →
      bs.length = 10 ∧ fieldAt bs 0 1 = status ∧ fieldAt bs 1 1 = 1
        ∧ fieldAt bs 2 4 = oldest.toNat ∧ fieldAt bs 6 4 = newest.toNat)
  ∧ (∀ (adjusted staged : Bool) (g : Generation) (bs : List Byte),
      bs = (Response.profileSet adjusted g staged).bytes →
      bs.length = 4 ∧ fieldAt bs 0 1 = (if adjusted then 2 else 1) ∧ fieldAt bs 1 2 = g.toNat
        ∧ fieldAt bs 3 1 = if staged then 2 else 1)
  ∧ (∀ (adjusted : Bool) (g : Generation) (bs : List Byte), bs = (Response.stationSet adjusted g).bytes →
      bs.length = 3 ∧ fieldAt bs 0 1 = (if adjusted then 2 else 1) ∧ fieldAt bs 1 2 = g.toNat)
  ∧ (∀ b, (Response.statusBlock b).bytes.length = 18 ∧ fieldAt (Response.statusBlock b).bytes 0 1 = 1)
  ∧ (∀ (n : Nat) (r : Record), (Response.taken n r).bytes = 0x01 :: BitVec.ofNat 8 n :: r.bytes
      ∧ (Response.taken n r).bytes.length =
        match r.detail with
        | .onset _ => 34
        | .close _ | .intake _ | .timing _ => 18)
  ∧ (∀ b p g st, (Response.profiles b p g st).bytes.length = 83
      ∧ fieldAt (Response.profiles b p g st).bytes 0 1 = 1)
  ∧ (∀ t g, (Response.station t g).bytes.length = 17 ∧ fieldAt (Response.station t g).bytes 0 1 = 1)
  ∧ (∀ t h l p, (Response.anchors t h l p).bytes.length = 20 ∧ fieldAt (Response.anchors t h l p).bytes 0 1 = 1)
  ∧ (∀ (n : Nat) (m : Bands Bool) (rs : List ReadResult),
      (Response.slots n m rs).bytes.length =
        5 + rs.length * (14 + 8 * (m.b0.toNat + m.b1.toNat + m.b2.toNat))
      ∧ fieldAt (Response.slots n m rs).bytes 0 1 = 1)

/-- R161, R176, R191: where the fields of the STATUS block, of the GET PROFILE, GET STATION and GET ANCHOR responses
and of the header of a READ FETCH response stand, counting bytes from the status byte as 0, and how states are
encoded. That bits 7 to 3 of the content mask in a READ FETCH response are 0 is deduced, not stated
(notes/assumptions/11.md), and that bits 7 to 2 of the first byte of a present anchor entry are 0 is the model's choice
(notes/assumptions/24.md). -/
def Obligations.ReadingResponsesCarryTheirFields : Prop :=
  (∀ (b : StatusBlock) (bs : List Byte), bs = (Response.statusBlock b).bytes →
    fieldAt bs 1 1 = (if b.core = .running then 1 else 0)
    ∧ (b.link = .searching → fieldAt bs 2 1 = 0) ∧ (b.link = .running → fieldAt bs 2 1 = 1)
    ∧ (b.link = .lost → fieldAt bs 2 1 = 2)
    ∧ (b.timing = .none → fieldAt bs 3 1 = 0) ∧ (b.timing = .locked → fieldAt bs 3 1 = 1)
    ∧ (b.timing = .holdover → fieldAt bs 3 1 = 2) ∧ (b.timing = .free → fieldAt bs 3 1 = 3)
    ∧ fieldAt bs 4 1 = (if b.attached then 1 else 0)
    ∧ fieldAt bs 5 1 = b.backlog % 256 ∧ fieldAt bs 6 1 = b.deliveredLength % 256
    ∧ fieldAt bs 7 1 = b.fill % 256 ∧ fieldAt bs 8 2 = b.generation.toNat
    ∧ (b.newest = none → fieldAt bs 10 1 = 0 ∧ fieldAt bs 11 4 = 0)
    ∧ (∀ n, b.newest = some n → fieldAt bs 10 1 = 1 ∧ fieldAt bs 11 4 = n.toNat)
    ∧ fieldAt bs 15 1 = b.engine % 256 ∧ fieldAt bs 16 1 = b.notices.toNat ∧ fieldAt bs 17 1 = b.mask.toNat)
  ∧ (∀ (b : Band) (p : Profile) (g : Generation) (st : Option Staged) (bs : List Byte),
    bs = (Response.profiles b p g st).bytes →
    fieldAt bs 1 1 = b.number ∧ fieldAt bs 2 2 = g.toNat
    ∧ (∀ i : Nat, i < 19 → fieldAt bs (4 + 2 * i) 2 = (profileWords p).getD i 0 % 65536)
    ∧ (st = none → bs.drop 42 = List.replicate 41 0)
    ∧ ∀ x, st = some x → fieldAt bs 42 1 = 1 ∧ fieldAt bs 43 2 = x.generation.toNat
        ∧ ∀ i : Nat, i < 19 → fieldAt bs (45 + 2 * i) 2 = (profileWords x.profile).getD i 0 % 65536)
  ∧ (∀ (t : Station) (g : Generation) (bs : List Byte), bs = (Response.station t g).bytes →
    (∀ i : Nat, i < 7 → fieldAt bs (1 + 2 * i) 2 = (stationWords t).getD i 0 % 65536)
    ∧ fieldAt bs 15 2 = g.toNat)
  ∧ (∀ (t : TimingState) (h : Nat) (l p : Option Anchor) (bs : List Byte), bs = (Response.anchors t h l p).bytes →
    fieldAt bs 1 1 = ([TimingState.none, .locked, .holdover, .free].idxOf t)
    ∧ fieldAt bs 2 4 = h % 4294967296
    ∧ ∀ (entry : Option Anchor) (start : Nat), (entry = l ∧ start = 6) ∨ (entry = p ∧ start = 13) →
      (entry = none → (bs.drop start).take 7 = List.replicate 7 0)
      ∧ ∀ x, entry = some x →
        fieldAt bs start 1 = (if x.regular then 3 else 1)
        ∧ fieldAt bs (start + 1) 4 = x.index.toNat ∧ fieldAt bs (start + 5) 2 = x.phase % 65536)
  ∧ (∀ (n : Nat) (m : Bands Bool) (rs : List ReadResult) (bs : List Byte), bs = (Response.slots n m rs).bytes →
    fieldAt bs 1 1 = rs.length % 256 ∧ fieldAt bs 2 2 = n % 65536
    ∧ fieldAt bs 4 1 = m.b0.toNat + 2 * m.b1.toNat + 4 * m.b2.toNat
    ∧ bs.drop 5 = rs.flatMap (ReadResult.bytes m))

/-- R192, R193: the bytes of an ONSET, a CLOSE, an INTAKE and a TIMING record, counted from 0. R194, R37: the bytes of a
fetched slot, and of an overwritten result. A field wider than its place is cut to it, which no record of the part
needs. -/
def Obligations.RecordsAndSlotsCarryTheirFields : Prop :=
  (∀ (r : Record) (bs : List Byte), bs = r.bytes →
    fieldAt bs 0 2 = r.serial.toNat ∧ fieldAt bs 3 4 = r.key.toNat
    ∧ (∀ o : OnsetPart, r.detail = .onset o →
      bs.length = 32 ∧ fieldAt bs 2 1 = 1 ∧ fieldAt bs 7 1 = o.band.number ∧ fieldAt bs 8 1 = o.episode.toNat
      ∧ fieldAt bs 9 1 = o.stack % 256 ∧ fieldAt bs 10 1 = [Phase.x, .p, .s].idxOf o.phase
      ∧ fieldAt bs 11 1 = o.uncertainty % 256 ∧ fieldAt bs 12 1 = o.ratio % 256
      ∧ fieldAt bs 13 1 = 128 * o.coarse.toNat + 64 * o.expired.toNat + 32 * o.shed.toNat
          + 8 * o.truncated.toNat + 4 * o.gap.toNat + 2 * o.damaged.toNat + o.clipped.toNat
      ∧ fieldAt bs 14 1 = o.verticalFraction.isSome.toNat + 2 * o.peaks.isSome.toNat
      ∧ fieldAt bs 15 1 = [TimingState.none, .locked, .holdover, .free].idxOf o.timing
      ∧ fieldAt bs 16 2 = o.generation.toNat
      ∧ fieldAt bs 18 1 = o.verticalFraction.getD 0 % 256
      ∧ fieldAt bs 19 4 = (o.peaks.getD (0, 0)).1 % 4294967296
      ∧ fieldAt bs 23 4 = (o.peaks.getD (0, 0)).2 % 4294967296
      ∧ bs.drop 27 = List.replicate 5 0)
    ∧ (∀ c : ClosePart, r.detail = .close c →
      bs.length = 16 ∧ fieldAt bs 2 1 = 2 ∧ fieldAt bs 7 1 = c.band.number ∧ fieldAt bs 8 1 = c.episode.toNat
      ∧ fieldAt bs 9 2 = c.duration % 65536 ∧ fieldAt bs 11 1 = c.stacked % 256
      ∧ fieldAt bs 12 1 = [CloseCause.fell, .capped, .cal, .gap].idxOf c.cause + 1
      ∧ bs.drop 13 = List.replicate 3 0)
    ∧ (∀ t : IntakeType, r.detail = .intake t →
      bs.length = 16 ∧ fieldAt bs 2 1 = 3 ∧ fieldAt bs 7 1 = (if t = .begins then 1 else 2)
      ∧ bs.drop 8 = List.replicate 8 0)
    ∧ (∀ (t : TimingPart) (l p : Anchor), r.detail = .timing t → t.latest = some l → t.previous = some p →
      l.phase ≤ 1023 → p.phase ≤ 1023 →
      bs.length = 16 ∧ fieldAt bs 2 1 = 4
      ∧ fieldAt bs 7 3 = 4194304 * [TimingState.none, .locked, .holdover, .free].idxOf t.timing
          + 2097152 * l.regular.toNat + 1048576 * p.regular.toNat + 1024 * l.phase + p.phase
      ∧ fieldAt bs 10 3 = (r.key - l.index).toNat % 16777216
      ∧ fieldAt bs 13 3 = (l.index - p.index).toNat % 16777216))
  ∧ ∀ (m : Bands Bool) (x : ReadResult) (bs : List Byte), bs = x.bytes m →
    bs.length = 14 + 8 * (m.b0.toNat + m.b1.toNat + m.b2.toNat)
    ∧ fieldAt bs 0 4 = x.index.toNat
    ∧ (x.slot = none → fieldAt bs 4 1 = 128 ∧ ∀ y ∈ bs.drop 5, y = 0)
    ∧ ∀ v, x.slot = some v →
      fieldAt bs 4 1 = 64 * v.damaged.toNat + 32 * v.gap.toNat + 16 * v.reading.clipZ.toNat
        + 8 * v.reading.clipN.toNat + 4 * v.reading.clipE.toNat + 2 * v.reading.cal.toNat + v.esat.toNat
      ∧ fieldAt bs 5 3 = v.reading.z.toNat ∧ fieldAt bs 8 3 = v.reading.n.toNat
      ∧ fieldAt bs 11 3 = v.reading.e.toNat
      ∧ ∀ (b : Band) (start : Nat), m.get b = true →
        start = 14 + 8 * (match b with
          | .b0 => 0
          | .b1 => m.b0.toNat
          | .b2 => m.b0.toNat + m.b1.toNat) →
        fieldAt bs start 4 = (v.energy.get b).toNat ∧ fieldAt bs (start + 4) 4 = (v.vertical.get b).toNat

/-! ### The slot write -/

/-- R13, R21, R28, R34, R35, R38, R45 to R47, R53, R91, R95: what the write of one slot stores and counts, on a state
that owes nothing to an earlier write and whose resolutions are not overdue: the next index, the gap-run count and the
event that becomes owed; the filter step and the energies and ESAT formed from it while RUNNING, neither while
STOPPED; the ring; the governor's drop and the resolutions' counts; the holdover count. Every other slot held reads as
before. What the write leaves owed: the refiner's handling exactly when a request in flight has its deadline at the
index written, a WAITING lane has its window end there, or the launch examination would launch (R91, R92, R96); the
list's exactly when one of its records is at the age limit or is held with key + H no later than the index, and
otherwise it has taken up the holdback and the index (R124, R125, R132); the Time Mark Unit's exactly when the watch
length or the holdover limit is reached (R27 to R29). What an earlier write still owes is taken before the next slot,
and a resolution that four writes have followed completes before it, lane by lane in lane order (R95). That these
handlings and the gap-run event are owed to later commands, that what is owed and what is overdue is taken there and
in that order, that equality alone decides the gap-run event after gap_limit was raised past a reported run, and that
the first grant comes at least one period after the write, are the model's choices (notes/assumptions/3.md, 7.md, 8.md
and 23.md). -/
def Obligations.SlotWritesStoreAndCount : Prop :=
  (∀ (k : SlotKind) (r : Reading) (s t : State) (i : Index) (v : Slot), s.owed = Owed.nothing →
    (∀ l q w n, s.refiner.lanes.get l = .resolving q w n → n < 4) →
    t = writeSlot k r s → i = s.intake.nextIndex →
    (t.ring.read i).slot = some v →
    t.intake =
      { s.intake with
        nextIndex := i + 1
        gapRun := match k with
          | .good => 0
          | .gap => min (s.intake.gapRun + 1) 65535
          | .damaged => s.intake.gapRun }
    ∧ (t.owed.gapRun = true ↔ k = .gap ∧ min (s.intake.gapRun + 1) 65535 = s.settings.station.gapLimit + 1)
    ∧ (s.settings.core = .stopped → t.filters = s.filters)
    ∧ (s.settings.core = .running → ∀ (b : Band) (c c' : Comps AveragePair) (p : Profile),
        c = s.filters.get b → c' = t.filters.get b → p = (s.units.get b).profile →
        c' =
          { z := { fast := c.z.fast + (256 * r.z.toInt - c.z.fast) / 2 ^ p.fastShift
                   slow := c.z.slow + (256 * r.z.toInt - c.z.slow) / 2 ^ p.slowShift }
            n := { fast := c.n.fast + (256 * r.n.toInt - c.n.fast) / 2 ^ p.fastShift
                   slow := c.n.slow + (256 * r.n.toInt - c.n.slow) / 2 ^ p.slowShift }
            e := { fast := c.e.fast + (256 * r.e.toInt - c.e.fast) / 2 ^ p.fastShift
                   slow := c.e.slow + (256 * r.e.toInt - c.e.slow) / 2 ^ p.slowShift } }
        ∧ v.energy.get b = bandEnergy c' ∧ v.vertical.get b = bandVertical c')
    ∧ (s.settings.core = .running →
        (v.esat = true ↔ ∃ b, bandSaturates (t.filters.get b) = true))
    ∧ (s.settings.core = .stopped → v.esat = false ∧ ∀ b, v.energy.get b = 0 ∧ v.vertical.get b = 0)
    ∧ v.reading = r ∧ v.damaged = decide (k = .damaged) ∧ v.gap = decide (k = .gap)
    ∧ t.ring =
        { cells := t.ring.cells, newest := some { index := i, accepted := s.clock.now }
          written := min (s.ring.written + 1) 8192, laneReads := 0, fetchReads := 0
          lastServed := s.ring.lastServed }
    ∧ (s.RingKept → ∀ j, j ≠ i → t.ring.holds j = true → t.ring.read j = s.ring.read j)
    ∧ t.refiner =
        { s.refiner with
          history := s.refiner.history.filter fun x => decide ((i - x).toNat < s.settings.station.span)
          lanes := t.refiner.lanes }
    ∧ (∀ l, t.refiner.lanes.get l =
        match s.refiner.lanes.get l with
        | .resolving q w n => .resolving q w (n + 1)
        | lane => lane)
    ∧ t.tmu =
        { s.tmu with
          holdover := if s.tmu.timing = .holdover then s.tmu.holdover + 1 else s.tmu.holdover }
    ∧ t.clock = { s.clock with grantFrom := max s.clock.grantFrom (s.clock.now + 1) }
    ∧ t.settings = s.settings ∧ t.pending = s.pending ∧ t.resetHeld = s.resetHeld
    ∧ (t.owed.refiner = .expiry ∨ t.owed.refiner = .done)
    ∧ (t.owed.refiner = .expiry ↔
        (∃ q, t.InFlight q ∧ q.deadline = i)
        ∨ (∃ l q, t.refiner.lanes.get l = .waiting q ∧ q.windowEnd = i)
        ∨ ∃ (head : Request) (more : List Request) (l : LaneId), t.refiner.queue = head :: more
          ∧ t.refiner.lanes.get l = .free ∧ s.settings.core = .running
          ∧ head.deadline ≠ i ∧ earlier head.deadline i = false
          ∧ ((t.refiner.history.drop (t.refiner.history.length - s.settings.station.launches)).filter
              fun x => decide ((i - x).toNat < s.settings.station.span)).length < s.settings.station.launches)
    ∧ (t.owed.list = .retire ∨ t.owed.list = .done)
    ∧ (t.owed.list = .retire ↔ ∃ x ∈ t.list.records, (i - x.key).toNat = 2147483647
        ∨ x.released = false
          ∧ (x.key + BitVec.ofNat 32 s.settings.station.holdback = i
            ∨ earlier (x.key + BitVec.ofNat 32 s.settings.station.holdback) i = true))
    ∧ (t.owed.list = .retire →
        t.list.holdback = s.list.holdback ∧ t.list.newestTaken = s.list.newestTaken)
    ∧ (t.owed.list = .done → t.list.holdback = s.settings.station.holdback ∧ t.list.newestTaken = some i)
    ∧ (t.owed.timing = true ↔
        (s.tmu.timing = .locked ∧ ∃ m : Anchor, s.tmu.latest = some m
          ∧ 3 * s.settings.station.fps / 2 ≤ (i - m.index).toNat)
        ∨ (s.tmu.timing = .holdover
          ∧ s.settings.station.holdoverLimit * s.settings.station.fps + 1 ≤ s.tmu.holdover + 1)))
  ∧ (∀ (k : SlotKind) (r : Reading) (s : State), writeSlot k r (settleOwed s) = writeSlot k r s)
  ∧ ∀ (k : SlotKind) (r : Reading) (s u : State) (l : LaneId) (q : Request) (w : List WindowSlot) (n : Nat),
    s.owed = Owed.nothing → s.refiner.lanes.get l = .resolving q w n → 4 ≤ n →
    (∀ j, [LaneId.l0, .l1, .l2, .l3].idxOf j < [LaneId.l0, .l1, .l2, .l3].idxOf l →
      ∀ q' w' m, s.refiner.lanes.get j = .resolving q' w' m → m < 4) →
    exec (.resolutionCompletion l) s = .next u → writeSlot k r s = writeSlot k r u

/-- R58, R59, R62, R64, R67, R69, R75: a unit's averages and counts at a slot write of an energy, with or without CAL
and the gap-run event. STA moves towards 256 times the energy by the STA shift while the band is not OFF; LTA by the
LTA shift, and not while it is frozen; each count goes on in its own state only. -/
def Obligations.UnitsAverageAndCount : Prop :=
  ∀ (u v : TriggerUnit) (e : Energy) (cal gapRun : Bool), v = u.tick e cal gapRun →
    (u.state = .off → v = u)
    ∧ (u.state ≠ .off →
        (v.sta : Int) = u.sta + (256 * (e.toNat : Int) - u.sta) / 2 ^ u.profile.staShift)
    ∧ (u.state = .warming ∨ u.state = .idle ∨ u.state = .cooldown →
        (v.lta : Int) = u.lta + (256 * (e.toNat : Int) - u.lta) / 2 ^ u.profile.ltaShift)
    ∧ (u.state = .pending ∨ u.state = .declared → v.lta = u.lta)
    ∧ (u.state = .warming →
        v = { u with sta := v.sta, lta := v.lta
                     warmCount := if cal = true ∨ gapRun = true then 0 else min (u.warmCount + 1) 65535 })
    ∧ (u.state = .idle → v = { u with sta := v.sta, lta := v.lta })
    ∧ (u.state = .pending → v = { u with sta := v.sta, confirmCount := u.confirmCount + 1 })
    ∧ (u.state = .declared →
        v = { u with sta := v.sta, staMin := min u.staMin v.sta
                     stackCount := u.stackCount + if u.tOn2.isSome then 1 else 0 })
    ∧ (u.state = .cooldown → gapRun = true → v = { u with sta := v.sta, lta := v.lta })
    ∧ (u.state = .cooldown → gapRun = false →
        v = { u with sta := v.sta, lta := v.lta, deadCount := min (u.deadCount + 1) 65535
                     rewarm := u.rewarm || cal })

/-- R64 to R71, R73, R75, R77, R83: what each Trigger Unit does at a slot write, once its averages and counts stand
updated as `u`. The transitions that are no row of the table are taken in the write: CAL in IDLE, PENDING and DECLARED,
the re-warm, the entry into PENDING, the episode's end with cause FELL, the beginning of a stacked confirmation. A case
that is a row stays owed, and the unit is as `u` until it (that the rows are owed and the rest taken at once is the
model's choice, after spec/95_what_each_step_holds.md; notes/assumptions/3.md). The end of an episode hands over its
CLOSE record; the records of one write are handed over in the order of the units to a list of any length, and nothing
else of the write changes the list's records, the readers or the ports (that order: notes/assumptions/4.md). -/
def Obligations.UnitsMoveAtSlotWrites : Prop :=
  (∀ u : TriggerUnit, (u.staged = none → u.applyStaged = u)
    ∧ ∀ (g : Staged) (same : Prop), u.staged = some g →
      (same ↔ g.profile.fastShift = u.profile.fastShift ∧ g.profile.slowShift = u.profile.slowShift
        ∧ g.profile.staShift = u.profile.staShift ∧ g.profile.ltaShift = u.profile.ltaShift) →
      (u.state = .off ∨ same →
        u.applyStaged = { u with profile := g.profile, generation := g.generation, staged := none })
      ∧ (u.state ≠ .off → ¬ same →
        u.applyStaged =
          { u with profile := g.profile, generation := g.generation, staged := none
                   state := .warming, warmCount := 0, rewarm := false }))
  ∧ (∀ (k : SlotKind) (r : Reading) (s t : State) (i : Index) (v : Slot) (event : Bool) (b : Band)
      (u open_ : TriggerUnit) (inUse : Nat) (becomes : TriggerUnit → Prop) (owes : Prop) (closes : CloseCause → Prop),
    s.owed = Owed.nothing → (∀ l q w n, s.refiner.lanes.get l = .resolving q w n → n < 4) →
    t = writeSlot k r s → i = s.intake.nextIndex → (t.ring.read i).slot = some v → event = t.owed.gapRun →
    u = (s.units.get b).tick (v.energy.get b) r.cal event →
    open_ = { u with lta := u.frozenLta.getD u.lta, frozenLta := none, heldMin := none, tOn := none, tOn2 := none } →
    inUse = max (u.frozenLta.getD u.lta) (256 * u.profile.ltaFloor) →
    (∀ w, becomes w ↔ t.units.get b = w ∧ t.owed.units.get b = false) →
    (owes ↔ t.units.get b = u ∧ t.owed.units.get b = true) →
    (∀ c, closes c ↔ ∀ a, u.tOn = some a → s.list.records.length ≤ 61 →
      t.HasRecord i (.close { band := b, episode := u.episode, duration := (i - a).toNat, stacked := u.stack
                              cause := c })) →
    (u.state = .off → becomes u)
    ∧ (u.state ≠ .off → event = true → owes)
    ∧ (event = false →
      (u.state = .warming → r.cal = false → u.profile.warmLen ≤ u.warmCount → owes)
      ∧ (u.state = .warming → (r.cal = true ∨ u.warmCount < u.profile.warmLen) → becomes u)
      ∧ (u.state = .idle → r.cal = true → becomes { u with rewarm := true })
      ∧ (u.state = .idle → r.cal = false → u.rewarm = true →
          becomes { u with state := .warming, warmCount := 0, rewarm := false })
      ∧ (u.state = .idle → r.cal = false → u.rewarm = false → 16 * u.sta ≥ u.profile.on * inUse →
          becomes { u with state := .pending, tOn := some i, frozenLta := some u.lta, confirmCount := 0 })
      ∧ (u.state = .idle → r.cal = false → u.rewarm = false → 16 * u.sta < u.profile.on * inUse → becomes u)
      ∧ (u.state = .pending → r.cal = true →
          becomes ({ open_ with state := .idle, rewarm := true } : TriggerUnit).applyStaged)
      ∧ (u.state = .pending → r.cal = false → u.confirmCount = u.profile.confirmLen → owes)
      ∧ (u.state = .pending → r.cal = false → u.confirmCount ≠ u.profile.confirmLen → becomes u)
      ∧ (u.state = .declared → r.cal = true →
          becomes ({ open_ with state := .cooldown, deadCount := 0, rewarm := true } : TriggerUnit).applyStaged
          ∧ closes .cal)
      ∧ (u.state = .declared → r.cal = false → 16 * u.sta < u.profile.off * inUse →
          becomes ({ open_ with state := .cooldown, deadCount := 0, rewarm := false } : TriggerUnit).applyStaged
          ∧ closes .fell)
      ∧ (∀ a, u.state = .declared → r.cal = false → 16 * u.sta ≥ u.profile.off * inUse → u.tOn = some a →
          (u.profile.maxDur ≤ (i - a).toNat → owes)
          ∧ ((i - a).toNat < u.profile.maxDur →
            (∀ t2, u.tOn2 = some t2 → u.stackCount = u.profile.confirmLen → owes)
            ∧ (∀ t2, u.tOn2 = some t2 → u.stackCount ≠ u.profile.confirmLen → becomes u)
            ∧ (u.tOn2 = none → u.stack < 3 →
                16 * u.sta ≥ u.profile.jump * max u.staMin (256 * u.profile.ltaFloor) →
                becomes { u with tOn2 := some i, heldMin := some u.staMin, stackCount := 0 })
            ∧ (u.tOn2 = none →
                (3 ≤ u.stack ∨ 16 * u.sta < u.profile.jump * max u.staMin (256 * u.profile.ltaFloor)) →
                becomes u)))
      ∧ (u.state = .cooldown → u.profile.deadLen ≤ u.deadCount → (u.rewarm = false ∨ r.cal = false) → owes)
      ∧ (u.state = .cooldown → (u.deadCount < u.profile.deadLen ∨ (u.rewarm = true ∧ r.cal = true)) →
          becomes u)))
  ∧ ∀ (k : SlotKind) (r : Reading) (s t handed : State) (i : Index) (v : Slot) (event : Bool)
      (close : Band → Option Detail),
    s.owed = Owed.nothing → (∀ l q w n, s.refiner.lanes.get l = .resolving q w n → n < 4) →
    t = writeSlot k r s → i = s.intake.nextIndex → (t.ring.read i).slot = some v → event = t.owed.gapRun →
    (∀ (b : Band) (u : TriggerUnit), u = (s.units.get b).tick (v.energy.get b) r.cal event →
      close b =
        if event = false ∧ u.state = .declared
            ∧ (r.cal = true ∨ 16 * u.sta < u.profile.off * max (u.frozenLta.getD u.lta) (256 * u.profile.ltaFloor)) then
          some (.close { band := b, episode := u.episode, duration := (i - u.tOn.getD i).toNat, stacked := u.stack
                         cause := if r.cal = true then .cal else .fell })
        else none) →
    handed = ([Band.b0, .b1, .b2].filterMap close).foldl (fun x d => insertRecord i d x) s →
    t.list.records = handed.list.records ∧ t.list.nextSerial = handed.list.nextSerial
      ∧ t.list.nearFullArmed = handed.list.nearFullArmed ∧ t.readers = handed.readers ∧ t.ports = handed.ports

/-! ### The digitizer link -/

/-- R5, R7, R8: on a settled state whose receiver waits, with no timer due before the byte is over, BYTE_DELIVERED takes
the line of one byte and hands the byte on at its stop-bit sample: hunting, a byte 0xC5 with a good stop bit starts a
frame and its timer, and any other is discarded; assembling, the byte joins the frame whatever it is. Time that another
command lets pass samples the line too: a byte that its last sample completes reaches the assembler at that sample. The
instants on the model's clock, and that a byte at the instant of an expiry may come before it, are the model's
(notes/assumptions/6.md). -/
def Obligations.BytesReachTheAssembler : Prop :=
  (∀ (v : Byte) (stop : Bool) (s : State) (late period : Nat), s.Settled → s.resetHeld = false →
    s.intake.receiver = { last := true, busy := none } → s.clock.now ≤ s.intake.nextSample →
    period = s.settings.station.linkDivider + 1 → late = s.intake.nextSample + 159 * period →
    (∀ k d, s.timer k = some d → late ≤ d) →
    exec (.byteDelivered (lineOfByte v stop)) s =
      .next ((s.setNow late).setIntake
        { s.intake with
          line := stop
          nextSample := late + period
          receiver := { last := stop, busy := none }
          assembler :=
            match s.intake.assembler with
            | .hunting =>
              if v = 0xC5 ∧ stop = true then .assembling [] (late + 24576000 / s.settings.station.fps)
              else .hunting
            | .assembling bytes e => .assembling (bytes ++ [{ value := v, fault := !stop }]) e }))
  ∧ ∀ (v : LinkByte) (s : State) (after late n : Nat) (rx : Receiver), s.Settled → s.ring.newest = none →
    s.clock.now ≤ s.intake.nextSample → late = s.clock.now + after → n = s.samplesBefore late →
    rxRun s.level n s.intake.receiver = { receiver := rx, byte := some v, left := 0 } →
    (∀ k d, s.timer k = some d → late ≤ d) → s.SettingsLegal →
    (∀ bytes e, s.intake.assembler = .assembling bytes e → bytes.length < 11) →
    exec (.timeMark after) s =
      .next ((s.setNow late).setIntake
        { s.intake with
          nextSample := s.intake.nextSample + n * (s.settings.station.linkDivider + 1)
          receiver := rx
          assembler :=
            match s.intake.assembler with
            | .hunting =>
              if v = { value := 0xC5, fault := false } then
                .assembling []
                  (s.intake.nextSample + (n - 1) * (s.settings.station.linkDivider + 1)
                    + 24576000 / s.settings.station.fps)
              else .hunting
            | .assembling bytes e => .assembling (bytes ++ [v]) e })

/-- R8, R9, R189: the twelve bytes after sync are a good frame when none carries a fault and the check agrees, with the
samples and flags in their places (R11); every other run of bytes is damaged. -/
def Obligations.FramesAreJudged : Prop :=
  (∀ (counter flags z2 z1 z0 n2 n1 n0 e2 e1 e0 : Byte),
    ∃ g, judgeFrame (([counter, flags, z2, z1, z0, n2, n1, n0, e2, e1, e0,
          crc8 [counter, flags, z2, z1, z0, n2, n1, n0, e2, e1, e0]] : List Byte).map
            fun v => { value := v, fault := false }) = some g
      ∧ g.counter = counter
      ∧ g.reading.z = z2 ++ z1 ++ z0 ∧ g.reading.n = n2 ++ n1 ++ n0 ∧ g.reading.e = e2 ++ e1 ++ e0
      ∧ g.reading.cal = flags.getLsbD 7
      ∧ (g.reading.clipZ = true ↔
          flags.getLsbD 2 = true ∨ g.reading.z.toInt = 8388607 ∨ g.reading.z.toInt = -8388608)
      ∧ (g.reading.clipN = true ↔
          flags.getLsbD 1 = true ∨ g.reading.n.toInt = 8388607 ∨ g.reading.n.toInt = -8388608)
      ∧ (g.reading.clipE = true ↔
          flags.getLsbD 0 = true ∨ g.reading.e.toInt = 8388607 ∨ g.reading.e.toInt = -8388608))
  ∧ (∀ bs : List LinkByte, (∃ b ∈ bs, b.fault = true) ∨ bs.length ≠ 12 → judgeFrame bs = none)
  ∧ (∀ bs : List LinkByte, bs.length = 12 →
      (bs.map LinkByte.value).getLast? ≠ some (crc8 ((bs.map LinkByte.value).take 11)) → judgeFrame bs = none)

/-- R10, R11, R14, R18, R19: FRAME with a good frame in SEARCHING or LOST returns the link to RUNNING and writes its
slot at the next index without gap fill, whatever part of it is to be held; what the write does is a slot write's.
From LOST it makes an INTAKE END record and raises INTAKE on both ports; from SEARCHING it makes no INTAKE record and
raises no INTAKE notice. Among the hand-overs of that slot write the END record is inserted after what the write
itself takes, such as a CLOSE record, and before a handling of the list that is owed: R123 leaves that order open, and
it is the model's choice (notes/assumptions/4.md). -/
def Obligations.GoodFramesBringTheLinkToRunning : Prop :=
  ∀ (s written : State) (bytes : List LinkByte) (e hold : Nat) (g : GoodFrame),
    s.intake.assembler = .assembling bytes e → bytes.length = 12 → judgeFrame bytes = some g →
    s.intake.inHand = none → s.intake.link ≠ .running →
    written = writeSlot .good g.reading (s.setIntake
      { s.intake with
        link := .running
        assembler := .hunting
        expected := some (g.counter + 1)
        lastGood := some g.reading
        linkTimer := some (s.clock.now + 4 * s.interval)
        gapSlotTimer := none }) →
    ∃ t, exec (.frame hold) s = .next t
      ∧ (s.intake.link = .searching → t = written
          ∧ (∀ key y, t.HasRecord key (.intake y) → s.HasRecord key (.intake y))
          ∧ ∀ p, t.Noticed .intake p → s.Noticed .intake p)
      ∧ (s.intake.link = .lost →
          t = raise .intake .b (raise .intake .a (insertRecord s.intake.nextIndex (.intake .ends) written))
          ∧ t.HasRecord s.intake.nextIndex (.intake .ends) ∧ ∀ p, t.Noticed .intake p)
      ∧ t.intake =
          { s.intake with
            link := .running
            assembler := .hunting
            nextIndex := s.intake.nextIndex + 1
            expected := some (g.counter + 1)
            lastGood := some g.reading
            linkTimer := some (s.clock.now + 4 * s.interval)
            gapSlotTimer := none
            gapRun := 0 }
      ∧ t.WroteSlot s.intake.nextIndex s.clock.now g.reading false false
      ∧ t.settings = s.settings ∧ t.clock.now = s.clock.now

/-- R10 to R13, R15, R21: FRAME with a good frame in RUNNING. With g = 0 the frame is discarded. With g from 1 on, g − 1
GAP slots repeating the last good sample and then the frame's slot are written at ascending indices, each as a slot
write of its own accepted at the judgement: `w j` is the state once j of them are written. FRAME leaves `hold` of them
to be written by a later FRAME, so that a mark or a request may fall among them (R24; that the operand says how many is
the model's choice, notes/assumptions/22.md). With no complete frame and no slot in hand FRAME changes nothing (the
model's choice, notes/assumptions/5.md). -/
def Obligations.RunningFramesFillTheirGaps : Prop :=
  (∀ (s : State) (hold : Nat), s.intake.assembler.complete = none →
    (s.intake.inHand = none → exec (.frame hold) s = .next s))
  ∧ ∀ (s : State) (bytes : List LinkByte) (e : Nat) (f : GoodFrame) (expected : Byte) (last : Reading) (g : Nat),
    s.intake.assembler = .assembling bytes e → bytes.length = 12 → judgeFrame bytes = some f →
    s.intake.inHand = none → s.intake.link = .running → s.intake.expected = some expected →
    s.intake.lastGood = some last → g = (f.counter.toNat + 256 - expected.toNat + 1) % 256 →
    (g = 0 → ∀ hold, exec (.frame hold) s = .next (s.setIntake { s.intake with assembler := .hunting }))
    ∧ (1 ≤ g → ∀ (w : Nat → State) (inHand : Nat → Option FrameInHand),
      (∀ j, inHand j = if g ≤ j then none else some { gaps := g - 1 - j, reading := f.reading }) →
      w 0 = s.setIntake
        { s.intake with
          assembler := .hunting
          expected := some (f.counter + 1)
          linkTimer := some (s.clock.now + 4 * s.interval)
          gapSlotTimer := none
          inHand := inHand 0 } →
      (∀ j, j + 1 < g →
        w (j + 1) = writeSlot .gap last ((w j).setIntake { (w j).intake with inHand := inHand (j + 1) })) →
      w g = writeSlot .good f.reading
        ((w (g - 1)).setIntake { (w (g - 1)).intake with inHand := none, lastGood := some f.reading }) →
      (∀ hold, exec (.frame hold) s = .next (w (g - hold)))
      ∧ (∀ j hold, j ≤ g → exec (.frame hold) (w j) = .next (w (max j (g - hold))))
      ∧ (∀ j, 1 ≤ j → j ≤ g →
          (w j).WroteSlot (s.intake.nextIndex + BitVec.ofNat 32 (j - 1)) s.clock.now
            (if j < g then last else f.reading) false (decide (j < g)))
      ∧ (w g).intake =
            { s.intake with
              assembler := .hunting
              nextIndex := s.intake.nextIndex + BitVec.ofNat 32 g
              expected := some (f.counter + 1)
              lastGood := some f.reading
              linkTimer := some (s.clock.now + 4 * s.interval)
              gapSlotTimer := none
              gapRun := 0 }
      ∧ (∀ i, 1 ≤ i → i < g →
            ∃ v, ((w g).ring.read (s.intake.nextIndex + BitVec.ofNat 32 (i - 1))).slot = some v
              ∧ v.reading = last ∧ v.gap = true ∧ v.damaged = false)
      ∧ ∀ j, j ≤ g → (w j).settings = s.settings ∧ (w j).clock.now = s.clock.now)

/-- R10, R12, R14, R16, R18: FRAME with a damaged frame writes one DAMAGED slot in RUNNING, a slot write accepted at the
judgement, where the expected counter goes on by one and the link timer runs on; in SEARCHING and LOST the frame is
dropped. -/
def Obligations.DamagedFramesKeepTheirPlace : Prop :=
  ∀ (s : State) (bytes : List LinkByte) (e hold : Nat),
    s.intake.assembler = .assembling bytes e → bytes.length = 12 → judgeFrame bytes = none →
    s.intake.inHand = none →
    (s.intake.link ≠ .running →
      exec (.frame hold) s = .next (s.setIntake { s.intake with assembler := .hunting }))
    ∧ (∀ expected last, s.intake.link = .running → s.intake.expected = some expected →
        s.intake.lastGood = some last →
        ∃ t, exec (.frame hold) s = .next t
          ∧ t = writeSlot .damaged last (s.setIntake
              { s.intake with assembler := .hunting, expected := some (expected + 1) })
          ∧ t.intake =
              { s.intake with
                assembler := .hunting
                nextIndex := s.intake.nextIndex + 1
                expected := some (expected + 1) }
          ∧ t.WroteSlot s.intake.nextIndex s.clock.now last true false
          ∧ t.settings = s.settings ∧ t.clock.now = s.clock.now)

/-- R8, R16: ASSEMBLY_TIMER_EXPIRY at its instant drops the bytes and handles a damaged frame, which is dropped in
SEARCHING and LOST. R17, R19: LINK_TIMER_EXPIRY takes the link to LOST with one GAP slot, the gap-slot timer and an
INTAKE BEGIN record. R18: GAP_SLOT_TIMER_EXPIRY writes one GAP slot and restarts. R10: each slot is accepted at the
expiry, and what its write does is a slot write's. The instants are the model's (notes/assumptions/6.md). That the BEGIN
record is inserted after what the slot write itself takes and before a handling of the list that is owed is the model's
choice too, since R123 leaves the order open (notes/assumptions/4.md). -/
def Obligations.TimersExpire : Prop :=
  ∀ (s u : State) (d : Nat), s.Settled → s.clock.now ≤ d → s.clock.now ≤ s.intake.nextSample → s.QuietUntil d →
    u = s.waited d →
    (s.timer .assembly = some d → s.intake.link ≠ .running →
      exec .assemblyTimerExpiry s = .next (u.setIntake { u.intake with assembler := .hunting }))
    ∧ (∀ expected last, s.timer .assembly = some d → s.intake.link = .running →
      s.intake.expected = some expected → s.intake.lastGood = some last →
      ∃ t, exec .assemblyTimerExpiry s = .next t
        ∧ t = writeSlot .damaged last (u.setIntake
            { u.intake with assembler := .hunting, expected := some (expected + 1) })
        ∧ t.intake =
            { u.intake with
              assembler := .hunting, nextIndex := s.intake.nextIndex + 1, expected := some (expected + 1) }
        ∧ t.WroteSlot s.intake.nextIndex d last true false ∧ t.clock.now = d ∧ t.settings = s.settings)
    ∧ (∀ last, s.timer .link = some d → s.intake.link = .running → s.intake.lastGood = some last →
      ∃ t, exec .linkTimerExpiry s = .next t
        ∧ t = raise .intake .b (raise .intake .a (insertRecord s.intake.nextIndex (.intake .begins)
            (writeSlot .gap last (u.setIntake
              { u.intake with
                link := .lost, expected := none, linkTimer := none, gapSlotTimer := some (d + s.interval) }))))
        ∧ t.intake =
            { u.intake with
              link := .lost, nextIndex := s.intake.nextIndex + 1, expected := none, linkTimer := none
              gapSlotTimer := some (d + s.interval), gapRun := min (s.intake.gapRun + 1) 65535 }
        ∧ t.WroteSlot s.intake.nextIndex d last false true ∧ t.clock.now = d ∧ t.settings = s.settings
        ∧ t.HasRecord s.intake.nextIndex (.intake .begins) ∧ ∀ p, t.Noticed .intake p)
    ∧ (∀ last, s.timer .gapSlot = some d → s.intake.link = .lost → s.intake.lastGood = some last →
      ∃ t, exec .gapSlotTimerExpiry s = .next t
        ∧ t = writeSlot .gap last (u.setIntake { u.intake with gapSlotTimer := some (d + s.interval) })
        ∧ t.intake =
            { u.intake with
              nextIndex := s.intake.nextIndex + 1, gapSlotTimer := some (d + s.interval)
              gapRun := min (s.intake.gapRun + 1) 65535 }
        ∧ t.WroteSlot s.intake.nextIndex d last false true ∧ t.clock.now = d ∧ t.settings = s.settings)

/-! ### Time marks -/

/-- R23 to R26, R28, R30: TIME_MARK is ignored before the first slot. Otherwise the mark enters the anchor table with
the newest index, its phase and its judgement; the timing state moves by the table of R26; and a change makes a TIMING
record keyed at the newest index and raises TIMING on both ports. R27, R28, R31: a mark is never taken within a slot
write. What the write whose index it latches still owes comes first: a declaration, so that the mark after it is the
mark alone, and the change that the watch or the holdover limit makes, with its record; the mark is judged on what they
leave. A mark at the present instant may fall among the slots of one frame, and finds what the queue has not named
taken in the model's order (notes/assumptions/3.md). When the mark comes is the model's operand
(notes/assumptions/6.md). -/
def Obligations.TimeMarksMoveTheTimingState : Prop :=
  (∀ (s u : State) (after late : Nat), late = s.clock.now + after →
    (after = 0 ∧ u = settleOwed s)
      ∨ (1 ≤ after ∧ s.Settled ∧ s.QuietUntil late ∧ u = s.waited late) →
    (s.ring.newest = none → exec (.timeMark after) s = .next u)
    ∧ ∀ (n : Newest) (mark : Anchor) (regular two : Bool), s.ring.newest = some n →
      regular = (match s.tmu.latest with
        | none => false
        | some m =>
          decide ((n.index - m.index).toNat + 1 = s.settings.station.fps
            ∨ (n.index - m.index).toNat = s.settings.station.fps
            ∨ (n.index - m.index).toNat = s.settings.station.fps + 1)) →
      two = (regular && match s.tmu.latest with
        | none => false
        | some m => m.regular) →
      mark =
        { index := n.index
          phase := min 1023 (256 * (late - n.accepted) / (24576000 / s.settings.station.fps))
          regular := regular } →
      ∃ t, exec (.timeMark after) s = .next t
        ∧ t.tmu.latest = some mark ∧ t.tmu.previous = s.tmu.latest
        ∧ (two = true → t.tmu.timing = .locked
            ∧ t.tmu.holdover = if u.tmu.timing = .locked then u.tmu.holdover else 0)
        ∧ (u.tmu.timing = .locked → regular = true → t.tmu.timing = .locked)
        ∧ (u.tmu.timing = .locked → regular = false → t.tmu.timing = .holdover ∧ t.tmu.holdover = 0)
        ∧ (u.tmu.timing ≠ .locked → two = false →
            t.tmu.timing = u.tmu.timing ∧ t.tmu.holdover = u.tmu.holdover)
        ∧ (t.tmu.timing = u.tmu.timing → t = u.setTmu t.tmu)
        ∧ (t.tmu.timing ≠ u.tmu.timing →
            t = raise .timing .b (raise .timing .a (insertRecord n.index
              (.timing { timing := t.tmu.timing, latest := some mark, previous := s.tmu.latest })
              (u.setTmu t.tmu)))
            ∧ t.HasRecord n.index
                (.timing { timing := t.tmu.timing, latest := some mark, previous := s.tmu.latest })
            ∧ ∀ p, t.Noticed .timing p)
        ∧ t.settings = s.settings ∧ t.intake = u.intake ∧ t.ring = s.ring ∧ t.units = u.units
        ∧ t.owed = Owed.nothing)
  ∧ (∀ (s v : State) (b : Band), s.NothingBegun →
      (∀ earlier : Band, earlier.number < b.number → s.owed.units.get earlier = false) →
      exec (.primaryDeclaration b) s = .next v ∨ exec (.stackedDeclaration b) s = .next v →
      exec (.timeMark 0) v = exec (.timeMark 0) s)
  ∧ (∀ (s v : State), (∀ b, s.owed.units.get b = false) → s.owed.refiner = .done → s.owed.list = .done →
      exec .watchExpiry s = .next v ∨ exec .holdoverExpiry s = .next v →
      exec (.timeMark 0) v = exec (.timeMark 0) s)
  ∧ ∀ s : State,
      (s.owed.timing = false → (settleOwed s).tmu = s.tmu)
      ∧ (∀ (m : Anchor) (n : Newest), s.owed.timing = true → s.tmu.timing = .locked → s.tmu.latest = some m →
        s.ring.newest = some n → 3 * s.settings.station.fps / 2 ≤ (n.index - m.index).toNat →
        (settleOwed s).tmu = { s.tmu with timing := .holdover, holdover := 0 }
        ∧ (settleOwed s).HasRecord n.index
          (.timing { timing := .holdover, latest := s.tmu.latest, previous := s.tmu.previous })
        ∧ ∀ p, (settleOwed s).Noticed .timing p)
      ∧ ∀ n : Newest, s.owed.timing = true → s.tmu.timing = .holdover → s.ring.newest = some n →
        s.settings.station.holdoverLimit * s.settings.station.fps + 1 ≤ s.tmu.holdover →
        (settleOwed s).tmu = { s.tmu with timing := .free }
        ∧ (settleOwed s).HasRecord n.index
          (.timing { timing := .free, latest := s.tmu.latest, previous := s.tmu.previous })
        ∧ ∀ p, (settleOwed s).Noticed .timing p

/-- R27, R29, R30: WATCH_EXPIRY once the distance from the latest mark has reached the watch length takes LOCKED to
HOLDOVER with count 0; R28 to R30: HOLDOVER_EXPIRY once the count has reached its limit takes HOLDOVER to FREE,
keeping the count; each makes its TIMING record and raises TIMING on both ports, and changes nothing else. An expiry
whose cause does not stand, in any timing state, changes nothing (the model's choice, notes/assumptions/5.md). -/
def Obligations.WatchAndHoldoverExpire : Prop :=
  ∀ (s : State), s.NothingBegun →
    (∀ (m : Anchor) (n : Newest), s.owed.timing = true → s.tmu.timing = .locked → s.tmu.latest = some m →
      s.ring.newest = some n → 3 * s.settings.station.fps / 2 ≤ (n.index - m.index).toNat →
      ∃ t, exec .watchExpiry s = .next t
        ∧ t = (raise .timing .b (raise .timing .a (insertRecord n.index
            (.timing { timing := .holdover, latest := s.tmu.latest, previous := s.tmu.previous })
            (s.setTmu { s.tmu with timing := .holdover, holdover := 0 })))).setOwed { s.owed with timing := false }
        ∧ t.tmu = { s.tmu with timing := .holdover, holdover := 0 }
        ∧ t.HasRecord n.index
            (.timing { timing := .holdover, latest := s.tmu.latest, previous := s.tmu.previous })
        ∧ (∀ p, t.Noticed .timing p)
        ∧ t.owed = { s.owed with timing := false } ∧ s.SameCore t ∧ t.units = s.units
        ∧ t.refiner = s.refiner)
    ∧ (∀ (n : Newest), s.owed.timing = true → s.tmu.timing = .holdover → s.ring.newest = some n →
      s.settings.station.holdoverLimit * s.settings.station.fps + 1 ≤ s.tmu.holdover →
      ∃ t, exec .holdoverExpiry s = .next t
        ∧ t = (raise .timing .b (raise .timing .a (insertRecord n.index
            (.timing { timing := .free, latest := s.tmu.latest, previous := s.tmu.previous })
            (s.setTmu { s.tmu with timing := .free })))).setOwed { s.owed with timing := false }
        ∧ t.tmu = { s.tmu with timing := .free }
        ∧ t.HasRecord n.index
            (.timing { timing := .free, latest := s.tmu.latest, previous := s.tmu.previous })
        ∧ (∀ p, t.Noticed .timing p)
        ∧ t.owed = { s.owed with timing := false } ∧ s.SameCore t ∧ t.units = s.units
        ∧ t.refiner = s.refiner)
    ∧ (s.owed.timing = false ∨ s.tmu.timing ≠ .locked ∨ s.tmu.latest = none
        ∨ (∃ (m : Anchor) (n : Newest), s.tmu.latest = some m ∧ s.ring.newest = some n
          ∧ (n.index - m.index).toNat < 3 * s.settings.station.fps / 2) →
      exec .watchExpiry s = .next s)
    ∧ (s.owed.timing = false ∨ s.tmu.timing ≠ .holdover
        ∨ s.tmu.holdover < s.settings.station.holdoverLimit * s.settings.station.fps + 1 →
      exec .holdoverExpiry s = .next s)

/-! ### The Trigger Units -/

/-- R21, R63 to R65, R68, R72, R75, R77: GAP_RUN_EVENT sends every band that is not OFF to WARMING with its averages
kept, the frozen LTA running again, and a staged profile applied; a DECLARED band's episode closes with cause GAP.
R77, R122, R129: the CLOSE records are handed over one after another, in the order of the units, to a list of any
length (that order is the model's choice, notes/assumptions/4.md). -/
def Obligations.GapRunsRestartTheBands : Prop :=
  ∀ (s : State) (n : Newest) (close : Band → Detail), s.NothingBegun → s.owed.gapRun = true → (∀ b, s.owed.units.get b = true) →
    s.ring.newest = some n →
    (∀ b, close b = .close
      { band := b, episode := (s.units.get b).episode
        duration := (n.index - (s.units.get b).tOn.getD n.index).toNat
        stacked := (s.units.get b).stack, cause := .gap }) →
    ∃ t, exec .gapRunEvent s = .next t
      ∧ s.SameCore t ∧ t.tmu = s.tmu ∧ t.refiner = s.refiner
      ∧ t = { (([Band.b0, .b1, .b2].filter fun b => decide ((s.units.get b).state = .declared)).foldl
              (fun x b => insertRecord n.index (close b) x) s) with units := t.units, owed := t.owed }
      ∧ t.owed = { s.owed with units := t.owed.units }
      ∧ (∀ b, t.owed.units.get b = decide ((s.units.get b).state = .off))
      ∧ ∀ (b : Band) (u : TriggerUnit), u = s.units.get b →
        (u.state = .off → t.units.get b = u)
        ∧ (u.state = .warming ∨ u.state = .idle ∨ u.state = .cooldown →
            t.units.get b = { u with state := .warming, warmCount := 0, rewarm := false })
        ∧ (u.state = .pending ∨ u.state = .declared →
            t.units.get b =
              { u with
                state := .warming
                warmCount := 0
                rewarm := false
                lta := u.frozenLta.getD u.lta
                frozenLta := none
                heldMin := none
                tOn := none
                tOn2 := none
                profile := (u.staged.map Staged.profile).getD u.profile
                generation := (u.staged.map Staged.generation).getD u.generation
                staged := none })
        ∧ (∀ a, u.state = .declared → u.tOn = some a → s.list.records.length ≤ 61 →
            t.HasRecord n.index
              (.close { band := b, episode := u.episode, duration := (n.index - a).toNat, stacked := u.stack,
                        cause := .gap }))

/-- R64: WARM_COUNT_EXPIRY takes a band to IDLE. R75: DEAD_COUNT_EXPIRY takes a band from COOLDOWN to IDLE, or to
WARMING once CAL has ended when the band must re-warm; on a CAL slot it then stays. At a slot write with the gap-run
event, whose case comes first, neither happens. -/
def Obligations.WarmAndDeadCountsExpire : Prop :=
  ∀ (s : State) (b : Band) (u : TriggerUnit), s.NothingBegun → u = s.units.get b →
    s.owed.units.get b = true →
    (s.owed.gapRun = true →
      exec (.warmCountExpiry b) s = .next s ∧ exec (.deadCountExpiry b) s = .next s)
    ∧ (s.owed.gapRun = false →
    (u.state = .warming → s.newestCal = false → u.profile.warmLen ≤ u.warmCount →
      exec (.warmCountExpiry b) s =
        .next ((s.setUnit b { u with state := .idle }).setOwed
          { s.owed with units := s.owed.units.set b false }))
    ∧ (u.state = .cooldown → u.profile.deadLen ≤ u.deadCount → u.rewarm = false →
      exec (.deadCountExpiry b) s =
        .next ((s.setUnit b { u with state := .idle }).setOwed
          { s.owed with units := s.owed.units.set b false }))
    ∧ (u.state = .cooldown → u.profile.deadLen ≤ u.deadCount → u.rewarm = true → s.newestCal = false →
      exec (.deadCountExpiry b) s =
        .next ((s.setUnit b { u with state := .warming, warmCount := 0, rewarm := false }).setOwed
          { s.owed with units := s.owed.units.set b false }))
    ∧ (u.state = .cooldown → u.rewarm = true → s.newestCal = true →
      exec (.deadCountExpiry b) s = .next s))

/-- R67, R68, R78, R79, R88 to R90: PRIMARY_DECLARATION at the confirming slot. On a true ON test the band declares,
and its request is offered to the launch queue: it is in flight, or shed with a coarse record when six are queued. On
a false one the band returns to IDLE with LTA running from the frozen value, and a staged profile is applied (R83). -/
def Obligations.PrimaryDeclarationsMakeRequests : Prop :=
  ∀ (s : State) (b : Band) (u : TriggerUnit) (a : Index), s.NothingBegun → u = s.units.get b →
    s.owed.units.get b = true → s.owed.gapRun = false → s.newestCal = false →
    u.state = .pending → u.tOn = some a → u.confirmCount = u.profile.confirmLen →
    (16 * u.sta ≥ u.profile.on * max (u.frozenLta.getD u.lta) (256 * u.profile.ltaFloor) →
      ∀ q : Request,
        q = { band := b, episode := u.episode + 1, stack := 0, trigger := a
              ws := a - BitVec.ofNat 32 u.profile.pre
              we := a + BitVec.ofNat 32 u.profile.post - 1
              deadline := a - BitVec.ofNat 32 u.profile.pre + BitVec.ofNat 32 s.settings.station.holdback
              fields :=
                { pre := u.profile.pre, post := u.profile.post, margin := u.profile.margin, polLen := u.profile.polLen
                  ampLen := u.profile.ampLen, pThresh := u.profile.pThresh, sThresh := u.profile.sThresh }
              ratio := min 255 (16 * u.sta / max (u.frozenLta.getD u.lta) (256 * u.profile.ltaFloor))
              generation := u.generation, timing := s.tmu.timing
              windowEnd := a + BitVec.ofNat 32 u.profile.post - 1, truncated := false } →
        ∃ t, exec (.primaryDeclaration b) s = .next t
          ∧ t = (offerRequest q (s.setUnit b
              { u with state := .declared, episode := u.episode + 1, stack := 0, staMin := u.sta
                       heldMin := none, tOn2 := none })).setOwed
              { s.owed with units := s.owed.units.set b false }
          ∧ t.units = s.units.set b
              { u with state := .declared, episode := u.episode + 1, stack := 0, staMin := u.sta
                       heldMin := none, tOn2 := none }
          ∧ t.owed = { s.owed with units := s.owed.units.set b false }
          ∧ s.SameCore t ∧ t.tmu = s.tmu
          ∧ (s.refiner.queue.length < 6 → t.InFlight q ∧ t.list = s.list)
          ∧ (6 ≤ s.refiner.queue.length →
              t.refiner = s.refiner ∧ t.HasRecord a (.onset (coarsePart q true))))
    ∧ ∀ idle : TriggerUnit,
      16 * u.sta < u.profile.on * max (u.frozenLta.getD u.lta) (256 * u.profile.ltaFloor) →
      idle =
        { u with state := .idle, lta := u.frozenLta.getD u.lta, frozenLta := none, heldMin := none
                 tOn := none, tOn2 := none } →
      (u.staged = none →
        exec (.primaryDeclaration b) s =
          .next ((s.setUnit b idle).setOwed { s.owed with units := s.owed.units.set b false }))
      ∧ ∀ (g : Staged) (same : Prop), u.staged = some g →
        (same ↔ g.profile.fastShift = u.profile.fastShift ∧ g.profile.slowShift = u.profile.slowShift
          ∧ g.profile.staShift = u.profile.staShift ∧ g.profile.ltaShift = u.profile.ltaShift) →
        (same → exec (.primaryDeclaration b) s =
          .next ((s.setUnit b
            { idle with profile := g.profile, generation := g.generation, staged := none }).setOwed
              { s.owed with units := s.owed.units.set b false }))
        ∧ (¬ same → exec (.primaryDeclaration b) s =
          .next ((s.setUnit b
            { idle with profile := g.profile, generation := g.generation, staged := none
                        state := .warming, warmCount := 0, rewarm := false }).setOwed
              { s.owed with units := s.owed.units.set b false }))

/-- R74, R78 to R80, R88 to R90: STACKED_DECLARATION where the stacked confirmation is decided. On a true test the
band counts one more stacked declaration, truncates its requests in flight at t_on2, and then offers the stacked
request; on a false one the confirmation ends and nothing else changes. -/
def Obligations.StackedDeclarationsMakeRequests : Prop :=
  ∀ (s : State) (b : Band) (u : TriggerUnit) (a t2 : Index) (m : Nat) (n : Newest), s.NothingBegun →
    u = s.units.get b → s.owed.units.get b = true → s.owed.gapRun = false → s.newestCal = false →
    s.ring.newest = some n → u.state = .declared → u.tOn = some a → u.tOn2 = some t2 → u.heldMin = some m →
    (n.index - a).toNat < u.profile.maxDur → u.stackCount = u.profile.confirmLen →
    16 * u.sta ≥ u.profile.off * max (u.frozenLta.getD u.lta) (256 * u.profile.ltaFloor) →
    (16 * u.sta ≥ u.profile.jump * max m (256 * u.profile.ltaFloor) →
      ∀ q : Request,
        q = { band := b, episode := u.episode, stack := u.stack + 1, trigger := t2
              ws := t2 - BitVec.ofNat 32 u.profile.pre
              we := t2 + BitVec.ofNat 32 u.profile.post - 1
              deadline := t2 - BitVec.ofNat 32 u.profile.pre + BitVec.ofNat 32 s.settings.station.holdback
              fields :=
                { pre := u.profile.pre, post := u.profile.post, margin := u.profile.margin, polLen := u.profile.polLen
                  ampLen := u.profile.ampLen, pThresh := u.profile.pThresh, sThresh := u.profile.sThresh }
              ratio := min 255 (16 * u.sta / max m (256 * u.profile.ltaFloor))
              generation := u.generation, timing := s.tmu.timing
              windowEnd := t2 + BitVec.ofNat 32 u.profile.post - 1, truncated := false } →
        ∃ t, exec (.stackedDeclaration b) s = .next t
          ∧ t = (offerRequest q (truncateBand b t2 (s.setUnit b
              { u with stack := u.stack + 1, staMin := u.sta, tOn2 := none, heldMin := none }))).setOwed
              { s.owed with units := s.owed.units.set b false }
          ∧ t.refiner = (offerRequest q (truncateBand b t2 s)).refiner
          ∧ t.units = s.units.set b
              { u with stack := u.stack + 1, staMin := u.sta, tOn2 := none, heldMin := none }
          ∧ t.owed = { s.owed with units := s.owed.units.set b false }
          ∧ s.SameCore t ∧ t.tmu = s.tmu
          ∧ (s.refiner.queue.length < 6 → t.InFlight q ∧ t.list = s.list)
          ∧ (6 ≤ s.refiner.queue.length →
              t.refiner = (truncateBand b t2 s).refiner ∧ t.HasRecord t2 (.onset (coarsePart q true))))
    ∧ (16 * u.sta < u.profile.jump * max m (256 * u.profile.ltaFloor) →
      exec (.stackedDeclaration b) s =
        .next ((s.setUnit b { u with tOn2 := none, heldMin := none }).setOwed
          { s.owed with units := s.owed.units.set b false }))

/-- R101 to R104: a truncation at t_on2 cuts the window end of each request of the band that reaches t_on2, queued or in
a WAITING or SCANNING lane, and no other; a WAITING lane begins to scan, and a lane that has read past the new end
resolves the cut window. -/
def Obligations.TruncationsCutWindows : Prop :=
  ∀ (s : State) (b : Band) (t2 : Index) (cut : Request → Request) (reached : Request → Prop),
    (∀ r, cut r = { r with windowEnd := t2 - 1, truncated := true }) →
    (∀ r, reached r ↔ r.band = b ∧ (t2 = r.windowEnd ∨ earlier t2 r.windowEnd = true)) →
    (truncateBand b t2 s).refiner.history = s.refiner.history
    ∧ (truncateBand b t2 s).refiner.queue.length = s.refiner.queue.length
    ∧ (∀ (i : Nat) (r : Request), s.refiner.queue[i]? = some r →
        (reached r → (truncateBand b t2 s).refiner.queue[i]? = some (cut r))
        ∧ (¬ reached r → (truncateBand b t2 s).refiner.queue[i]? = some r))
    ∧ ∀ l : LaneId,
        (∀ r, s.refiner.lanes.get l = .waiting r → reached r →
          (truncateBand b t2 s).refiner.lanes.get l = .scanning (cut r) [])
        ∧ (∀ r w, s.refiner.lanes.get l = .scanning r w → reached r → w.length < (t2 - r.ws).toNat →
          (truncateBand b t2 s).refiner.lanes.get l = .scanning (cut r) w)
        ∧ (∀ r w, s.refiner.lanes.get l = .scanning r w → reached r → 1 ≤ (t2 - r.ws).toNat →
          (t2 - r.ws).toNat ≤ w.length →
          (truncateBand b t2 s).refiner.lanes.get l = .resolving (cut r) (w.take (t2 - r.ws).toNat) 0)
        ∧ (∀ r w k, s.refiner.lanes.get l = .resolving r w k →
          (truncateBand b t2 s).refiner.lanes.get l = .resolving r w k)
        ∧ (∀ r, (s.refiner.lanes.get l).request = some r → ¬ reached r →
          (truncateBand b t2 s).refiner.lanes.get l = s.refiner.lanes.get l)

/-- R70, R77, R82, R83: MAX_DUR_EXPIRY ends an episode that has run max_dur slots with cause CAPPED; the band goes to
COOLDOWN, LTA runs from the frozen value, the CLOSE record is keyed at the newest slot, and a staged profile is applied,
which sends the band to WARMING when a shift differs. -/
def Obligations.LongEpisodesAreCapped : Prop :=
  ∀ (s : State) (b : Band) (u ended : TriggerUnit) (a : Index) (n : Newest), s.NothingBegun →
    u = s.units.get b → s.owed.units.get b = true → s.owed.gapRun = false → s.newestCal = false →
    s.ring.newest = some n → u.state = .declared → u.tOn = some a →
    16 * u.sta ≥ u.profile.off * max (u.frozenLta.getD u.lta) (256 * u.profile.ltaFloor) →
    u.profile.maxDur ≤ (n.index - a).toNat →
    ended =
      { u with state := .cooldown, deadCount := 0, rewarm := false, lta := u.frozenLta.getD u.lta
               frozenLta := none, heldMin := none, tOn := none, tOn2 := none } →
    ∃ t, exec (.maxDurExpiry b) s = .next t
      ∧ t.HasRecord n.index
          (.close { band := b, episode := u.episode, duration := (n.index - a).toNat, stacked := u.stack,
                    cause := .capped })
      ∧ t = { insertRecord n.index
                (.close { band := b, episode := u.episode, duration := (n.index - a).toNat, stacked := u.stack,
                          cause := .capped }) s with
              units := t.units, owed := { s.owed with units := s.owed.units.set b false } }
      ∧ t.owed = { s.owed with units := s.owed.units.set b false }
      ∧ s.SameCore t ∧ t.tmu = s.tmu ∧ t.refiner = s.refiner
      ∧ (u.staged = none → t.units = s.units.set b ended)
      ∧ (∀ g, u.staged = some g →
          g.profile.fastShift = u.profile.fastShift ∧ g.profile.slowShift = u.profile.slowShift
            ∧ g.profile.staShift = u.profile.staShift ∧ g.profile.ltaShift = u.profile.ltaShift →
          t.units = s.units.set b
            { ended with profile := g.profile, generation := g.generation, staged := none })
      ∧ (∀ g, u.staged = some g →
          ¬ (g.profile.fastShift = u.profile.fastShift ∧ g.profile.slowShift = u.profile.slowShift
            ∧ g.profile.staShift = u.profile.staShift ∧ g.profile.ltaShift = u.profile.ltaShift) →
          t.units = s.units.set b
            { ended with profile := g.profile, generation := g.generation, staged := none
                         state := .warming, warmCount := 0 })

/-! ### The Onset Refiner -/

/-- R89, R90: a request handed over to a queue of fewer than six takes its place after every request whose deadline is
earlier or equal and before every other, and the launch examination follows; handed over to a queue of six it is shed
with a coarse SHED record, and nothing else of the refiner changes. -/
def Obligations.HandOversEnterByDeadlineOrAreShed : Prop :=
  ∀ (q : Request) (s : State),
    (∀ before after : List Request, s.refiner.queue = before ++ after → s.refiner.queue.length < 6 →
      (∀ r ∈ before, earlier q.deadline r.deadline = false) →
      (∀ r, after.head? = some r → earlier q.deadline r.deadline = true) →
      offerRequest q s =
        launchExamination { s with refiner := { s.refiner with queue := before ++ q :: after } })
    ∧ (6 ≤ s.refiner.queue.length →
      offerRequest q s =
        insertRecord q.trigger (.onset
          { band := q.band, episode := q.episode, stack := q.stack, phase := .x, uncertainty := 3
            coarse := true, expired := false, shed := true, truncated := q.truncated
            gap := false, damaged := false, clipped := false
            ratio := q.ratio, generation := q.generation, timing := q.timing
            verticalFraction := none, peaks := none }) s
      ∧ (offerRequest q s).refiner = s.refiner)

/-- R91, R92: the launch examination puts the head of the queue into the lowest FREE lane, WAITING for its window end or
SCANNING, with its launch in the history, and is then made again; with an empty queue, no FREE lane, the governor
withholding, the core STOPPED, or the head's deadline written, it changes nothing (that it stops at such a head is the
model's reading, notes/assumptions/19.md). R96: LAUNCH is that examination, as the last step of the newest slot write's
handling or after it. -/
def Obligations.LaunchesTakeTheHead : Prop :=
  (∀ s : State,
    ((s.refiner.queue = [] ∨ (∀ l, s.refiner.lanes.get l ≠ .free) ∨ s.settings.core = .stopped
        ∨ s.ring.newest = none) →
      launchExamination s = s)
    ∧ ∀ (n : Newest) (inSpan : Nat), s.ring.newest = some n →
      inSpan = ((s.refiner.history.drop (s.refiner.history.length - s.settings.station.launches)).filter
        fun x => decide ((n.index - x).toNat < s.settings.station.span)).length →
      (s.settings.station.launches ≤ inSpan → launchExamination s = s)
      ∧ ∀ (head : Request) (more : List Request), s.refiner.queue = head :: more →
        (head.deadline = n.index ∨ earlier head.deadline n.index = true → launchExamination s = s)
        ∧ ∀ l : LaneId, head.deadline ≠ n.index → earlier head.deadline n.index = false →
          s.settings.core = .running → s.refiner.lanes.get l = .free →
          (∀ k, [LaneId.l0, .l1, .l2, .l3].idxOf k < [LaneId.l0, .l1, .l2, .l3].idxOf l →
            s.refiner.lanes.get k ≠ .free) →
          inSpan < s.settings.station.launches →
          launchExamination s =
            launchExamination { s with refiner :=
              { queue := more
                lanes := s.refiner.lanes.set l
                  (if earlier n.index head.windowEnd = true then .waiting head else .scanning head [])
                history := (s.refiner.history ++ [n.index]).drop
                  (s.refiner.history.length + 1 - s.settings.station.launches) } })
  ∧ ∀ s : State, (s.owed.list = .retire ∨ s.owed.list = .done) →
    (s.owed.refiner = .done → exec .launch s = .next (launchExamination s))
    ∧ (s.owed.refiner = .launch →
      exec .launch s = .next ((launchExamination s).setOwed { s.owed with refiner := .done }))

/-- R96 to R98, R113: DEADLINE_EXPIRY frees each lane whose request's deadline is the newest index and drops each such
queued request, with a coarse EXPIRED record for each. R96, R115, R122, R129: the records are handed over one after
another, those of the lanes in lane-number order and then those of the queue in queue order, to a list of any length.
R93, R96: SCAN_START after it takes each WAITING lane whose window end is the newest index to SCANNING, and no other. -/
def Obligations.DeadlinesExpireAndScansStart : Prop :=
  ∀ (s : State) (n : Newest) (coarse : Request → Detail) (held : LaneId → List Request), s.ring.newest = some n →
    (s.owed.list = .retire ∨ s.owed.list = .done) →
    (∀ r, coarse r = .onset
      { band := r.band, episode := r.episode, stack := r.stack, phase := .x, uncertainty := 3
        coarse := true, expired := true, shed := false, truncated := r.truncated
        gap := false, damaged := false, clipped := false
        ratio := r.ratio, generation := r.generation, timing := r.timing
        verticalFraction := none, peaks := none }) →
    (∀ l, held l = match s.refiner.lanes.get l with
      | .free => []
      | .waiting r => [r]
      | .scanning r _ => [r]
      | .resolving r _ _ => [r]) →
    (s.owed.refiner = .expiry →
      ∃ t, exec .deadlineExpiry s = .next t
        ∧ t = { (((held .l0 ++ held .l1 ++ held .l2 ++ held .l3 ++ s.refiner.queue).filter
                fun r => decide (r.deadline = n.index)).foldl
                  (fun x r => insertRecord r.trigger (coarse r) x) s) with
              refiner := t.refiner, owed := { s.owed with refiner := .scanStart } }
        ∧ t.refiner.history = s.refiner.history
        ∧ t.refiner.queue = s.refiner.queue.filter (fun r => decide (r.deadline ≠ n.index))
        ∧ (∀ l r, (s.refiner.lanes.get l).request = some r → r.deadline = n.index →
            t.refiner.lanes.get l = .free)
        ∧ (∀ l, (∀ r, (s.refiner.lanes.get l).request = some r → r.deadline ≠ n.index) →
            t.refiner.lanes.get l = s.refiner.lanes.get l)
        ∧ (s.RefinerKept → s.list.records.length + 10 < 56 →
            t = { s with refiner := t.refiner, list := t.list, owed := { s.owed with refiner := .scanStart } }
            ∧ (∀ r, s.InFlight r → r.deadline = n.index → t.HasRecord r.trigger (coarse r))
            ∧ ∀ x ∈ s.list.records, x ∈ t.list.records))
    ∧ (s.owed.refiner = .scanStart →
      ∃ t, exec .scanStart s = .next t
        ∧ t = { s with
            refiner := { s.refiner with lanes := t.refiner.lanes }, owed := { s.owed with refiner := .launch } }
        ∧ (∀ l r, s.refiner.lanes.get l = .waiting r → r.windowEnd = n.index →
            t.refiner.lanes.get l = .scanning r [])
        ∧ (∀ l, (∀ r, s.refiner.lanes.get l = .waiting r → r.windowEnd ≠ n.index) →
            t.refiner.lanes.get l = s.refiner.lanes.get l))

/-- R38 to R42, R94, R184: READ_GRANT. While an eligible lane exists, the lane of the earliest deadline, the lowest
number on a tie, stores the slot at its next index and resolves once its window is whole; otherwise an eligible fetch
engine, alternating, buffers what its next index reads as, and is READY with its notice at the last. Each counts one
read, and the next grant comes at least 32 periods later. With nobody wanting or the budget spent nothing changes. The
instant is the model's (notes/assumptions/7.md), and so is that a complete frame, the slots in hand and all that is owed
are settled before the command, also where nobody is eligible then (notes/assumptions/3.md and 5.md). -/
def Obligations.ReadGrantsFollowTheArbiter : Prop :=
  (∀ s : State, exec .readGrant (settle s) = exec .readGrant s)
  ∧ ∀ (s u : State) (late : Nat) (laneWants : LaneId → Prop) (engineWants : Port → Prop), s.Settled →
    late = max s.clock.now s.clock.grantFrom → s.clock.now ≤ s.intake.nextSample → s.QuietUntil late →
    u = s.waited late →
    (∀ l, laneWants l ↔ ∃ r w, s.refiner.lanes.get l = .scanning r w
      ∧ w.length < (r.windowEnd - r.ws).toNat + 1) →
    (∀ p, engineWants p ↔ ∃ f, (s.ports.get p).engine = .filling f ∧ f.buffer.length < f.count) →
    ((s.ring.newest = none ∨ 48 ≤ s.ring.laneReads + s.ring.fetchReads
        ∨ ((∀ l, ¬ laneWants l) ∧ ∀ p, ¬ engineWants p)
        ∨ ((∃ l, laneWants l) ∧ (∃ p, engineWants p) ∧ 40 ≤ s.ring.laneReads ∧ 8 ≤ s.ring.fetchReads)) →
      exec .readGrant s = .next s)
    ∧ (∀ (l : LaneId) (r : Request) (w : List WindowSlot), s.ring.newest.isSome = true →
      s.ring.laneReads + s.ring.fetchReads < 48 → s.refiner.lanes.get l = .scanning r w →
      w.length < (r.windowEnd - r.ws).toNat + 1 →
      (s.ring.laneReads < 40 ∨ ∀ p, ¬ engineWants p) →
      (∀ k q v, k ≠ l → laneWants k → s.refiner.lanes.get k = .scanning q v →
        earlier r.deadline q.deadline = true
          ∨ (r.deadline = q.deadline
            ∧ [LaneId.l0, .l1, .l2, .l3].idxOf l < [LaneId.l0, .l1, .l2, .l3].idxOf k)) →
      ∃ x : WindowSlot,
        exec .readGrant s =
          .next { u with
            ring := { s.ring with laneReads := s.ring.laneReads + 1 }
            refiner := { s.refiner with
              lanes := s.refiner.lanes.set l
                (if w.length + 1 = (r.windowEnd - r.ws).toNat + 1 then .resolving r (w ++ [x]) 0
                 else .scanning r (w ++ [x])) }
            clock := { s.clock with now := late, grantFrom := late + 32 } }
        ∧ (∀ v, (s.ring.read (r.ws + BitVec.ofNat 32 w.length)).slot = some v →
            x = { energy := v.energy.get r.band, vertical := v.vertical.get r.band
                  gap := v.gap, damaged := v.damaged
                  clipped := v.reading.clipZ || v.reading.clipN || v.reading.clipE || v.esat })
        ∧ ((s.ring.read (r.ws + BitVec.ofNat 32 w.length)).slot = none →
            x = { energy := 0, vertical := 0, gap := false, damaged := false, clipped := false }))
    ∧ ∀ (p : Port) (f f' : Fetch), s.ring.newest.isSome = true →
      s.ring.laneReads + s.ring.fetchReads < 48 → (s.ports.get p).engine = .filling f →
      f.buffer.length < f.count →
      ((∀ l, ¬ laneWants l) ∨ (40 ≤ s.ring.laneReads ∧ s.ring.fetchReads < 8)) →
      (engineWants p.other → s.ring.lastServed = some p.other
        ∨ (s.ring.lastServed = none ∧ s.clock.fillOrder.head? = some p)) →
      f' = { f with buffer := f.buffer ++ [s.ring.read (f.start + BitVec.ofNat 32 f.buffer.length)] } →
      (f.buffer.length + 1 < f.count →
        exec .readGrant s =
          .next ({ u with
            ring := { s.ring with fetchReads := s.ring.fetchReads + 1, lastServed := some p }
            clock := { s.clock with now := late, grantFrom := late + 32 } }.setPort p
              { s.ports.get p with engine := .filling f' }))
      ∧ (f.buffer.length + 1 = f.count →
        exec .readGrant s =
          .next ({ u with
            ring := { s.ring with fetchReads := s.ring.fetchReads + 1, lastServed := some p }
            clock := { now := late, grantFrom := late + 32, fillOrder := s.clock.fillOrder.erase p } }.setPort p
              { s.ports.get p with
                engine := .ready f', notices := noticeAdd .fetch (s.ports.get p).notices }))

/-- R95, R112: RESOLUTION_COMPLETION of a RESOLVING lane hands over the refined record, keyed at ws + k* with the part
the window gives; the lane is FREE, and the launch examination follows. In any other lane state nothing changes. What is
owed to the newest slot write comes before it (R99; the model's default order, notes/assumptions/3.md). When the
completion comes is the model's operand (notes/assumptions/8.md). -/
def Obligations.ResolutionsHandOverRefinedRecords : Prop :=
  (∀ (s : State) (l : LaneId),
    exec (.resolutionCompletion l) (settleOwed s) = exec (.resolutionCompletion l) s)
  ∧ ∀ (s : State) (l : LaneId), s.owed = Owed.nothing →
    (∀ (r : Request) (w : List WindowSlot) (k : Nat) (vf : Option Nat), s.refiner.lanes.get l = .resolving r w k →
      vf = verticalFraction ((w.drop (bestCandidate w)).take r.fields.polLen) →
      ∃ t pv ph part, exec (.resolutionCompletion l) s = .next t
        ∧ part =
            { band := r.band, episode := r.episode, stack := r.stack, phase := phaseOf r.fields vf
              uncertainty := uncertaintyClass (spreadWidth w r.fields.margin)
              coarse := false, expired := false, shed := false, truncated := r.truncated
              gap := w.any fun x => x.gap
              damaged := w.any fun x => x.damaged
              clipped := w.any fun x => x.clipped
              ratio := r.ratio, generation := r.generation, timing := r.timing
              verticalFraction := vf, peaks := some (pv, ph) }
        ∧ t = launchExamination
            (insertRecord (r.ws + BitVec.ofNat 32 (bestCandidate w)) (.onset part)
              { s with refiner := { s.refiner with lanes := s.refiner.lanes.set l .free } })
        ∧ t.HasRecord (r.ws + BitVec.ofNat 32 (bestCandidate w)) (.onset part)
        ∧ (∀ x ∈ (w.drop (bestCandidate w)).take r.fields.ampLen,
            x.vertical.toNat ≤ pv ∧ x.energy.toNat - x.vertical.toNat ≤ ph)
        ∧ ((w.drop (bestCandidate w)).take r.fields.ampLen ≠ [] →
            (∃ x ∈ (w.drop (bestCandidate w)).take r.fields.ampLen, x.vertical.toNat = pv)
            ∧ ∃ x ∈ (w.drop (bestCandidate w)).take r.fields.ampLen, x.energy.toNat - x.vertical.toNat = ph)
        ∧ t.launchReady = false
        ∧ s.SameCore t ∧ t.tmu = s.tmu ∧ t.units = s.units ∧ t.owed = s.owed)
    ∧ ((∀ r w k, s.refiner.lanes.get l ≠ .resolving r w k) → exec (.resolutionCompletion l) s = .next s)

/-! ### The list at a slot write -/

/-- R124, R125, R132: RETIREMENT takes up the holdback and the newest index and removes every record at the age limit.
With none there, it changes nothing else. Otherwise each retired record leaves the delivered sequences, whose other
serials keep their order, each attached reader that has not confirmed one gets LOST (R130), both backlogs are evaluated
(R154), and the near-full flag is set where fewer than 48 records are left (R133). R125, R127, R154: RELEASE after it
releases each held record whose holdback has passed, removes those just released that are removable, sets the near-full
flag where fewer than 48 are left (R133), and evaluates both backlogs. -/
def Obligations.TheListRetiresAndReleases : Prop :=
  ∀ (s : State) (n : Newest), s.ring.newest = some n →
    (s.owed.refiner = .expiry ∨ s.owed.refiner = .done) → s.ListKept → s.ReadersKept →
    (s.owed.list = .retire →
      ∃ t, exec .retirement s = .next t
        ∧ t.list.records = s.list.records.filter (fun r => decide ((n.index - r.key).toNat ≠ 2147483647))
        ∧ t.list.holdback = s.settings.station.holdback ∧ t.list.newestTaken = some n.index
        ∧ t.list.nextSerial = s.list.nextSerial
        ∧ ((∀ r ∈ s.list.records, (n.index - r.key).toNat ≠ 2147483647) →
            t = { s with
              list := { s.list with holdback := s.settings.station.holdback, newestTaken := some n.index }
              owed := { s.owed with list := .release } })
        ∧ t.list.nearFullArmed = (s.list.nearFullArmed || decide (t.list.records.length < 48))
        ∧ ((∃ r ∈ s.list.records, (n.index - r.key).toNat = 2147483647) → ∀ (p : Port) (lost : Bool),
            (lost = true ↔ (s.readers.get p).attached = true
              ∧ ∃ r ∈ s.list.records, (n.index - r.key).toNat = 2147483647 ∧ r.marks.get p = false) →
            t.readers.get p = ({ s.readers.get p with
                delivered := (s.readers.get p).delivered.filter fun v => !s.list.records.any fun r =>
                  decide ((n.index - r.key).toNat = 2147483647) && decide (r.serial = v) } : Reader).evaluatedAt
                  (t.backlog p)
            ∧ t.ports.get p =
                { s.ports.get p with
                  notices := (s.readers.get p).noticesAt (t.backlog p)
                    (if lost = true then noticeAdd .lost (s.ports.get p).notices
                     else (s.ports.get p).notices) })
        ∧ (∀ r ∈ s.list.records, (n.index - r.key).toNat = 2147483647 →
            ∀ p, (s.readers.get p).attached = true → r.marks.get p = false →
              t.Noticed .lost p ∧ r.serial ∉ (t.readers.get p).delivered)
        ∧ t.owed = { s.owed with list := .release } ∧ s.SameCore t ∧ t.tmu = s.tmu ∧ t.units = s.units
        ∧ t.refiner = s.refiner)
    ∧ (∀ (due removable : Record → Bool), s.owed.list = .release →
      (∀ r, due r = true ↔ r.released = false
        ∧ (r.key + BitVec.ofNat 32 s.list.holdback = n.index
          ∨ earlier (r.key + BitVec.ofNat 32 s.list.holdback) n.index = true)) →
      (∀ r, removable r = true ↔ (∃ p, (s.readers.get p).attached = true)
        ∧ ∀ p, (s.readers.get p).attached = true → r.marks.get p = true) →
      ∃ t, exec .release s = .next t
        ∧ t.list =
            { s.list with
              records := (s.list.records.filter fun r => !(due r && removable r)).map
                fun r => if due r = true then { r with released := true } else r
              nearFullArmed := s.list.nearFullArmed || decide ((s.list.records.filter fun r =>
                !(due r && removable r)).length < 48) }
        ∧ (s.list.records.any due = false → t = s.setOwed { s.owed with list := .done })
        ∧ (s.list.records.any due = true → ∀ p,
            t.readers.get p = (s.readers.get p).evaluatedAt (t.backlog p)
            ∧ t.ports.get p =
                { s.ports.get p with
                  notices := (s.readers.get p).noticesAt (t.backlog p) (s.ports.get p).notices })
        ∧ t.owed = { s.owed with list := .done } ∧ s.SameCore t ∧ t.tmu = s.tmu ∧ t.units = s.units
        ∧ t.refiner = s.refiner)

/-! ### Notices and reading requests -/

/-- R190: the bit of each source in a notice set and in an enable mask. R177, R178: a raised source is pending once,
whatever the mask, and no other source changes; attention is asserted exactly while an enabled source is pending.
R179: IDENTIFY returns and removes the enabled pending source of highest priority, and says whether another is enabled
and pending; with none it changes nothing. -/
def Obligations.IdentifyReturnsTheHighestNotice : Prop :=
  (∀ (n m : Notice) (p q : Port) (s : State),
    (raise n p s).Noticed n p ∧ raise n p (raise n p s) = raise n p s
    ∧ (m ≠ n ∨ q ≠ p → ((raise n p s).Noticed m q ↔ s.Noticed m q)))
  ∧ (∀ (s : State) (p : Port),
    s.attention p = true ↔ ∃ n, s.Noticed n p ∧ noticeIn n (s.ports.get p).mask = true)
  ∧ ([.intake, .lost, .nearFull, .backlog, .timing, .core, .settings, .fetch] : List Notice).map Notice.number =
      [1, 2, 3, 4, 5, 6, 7, 8]
  ∧ (∀ set : BitVec 8,
      noticeIn .intake set = set.getLsbD 7 ∧ noticeIn .lost set = set.getLsbD 6
      ∧ noticeIn .nearFull set = set.getLsbD 5 ∧ noticeIn .backlog set = set.getLsbD 4
      ∧ noticeIn .timing set = set.getLsbD 3 ∧ noticeIn .core set = set.getLsbD 2
      ∧ noticeIn .settings set = set.getLsbD 1 ∧ noticeIn .fetch set = set.getLsbD 0)
  ∧ ∀ (s : State) (p : Port) (rest : List Bool) (stands : Notice → Prop), s.PortsOpen →
    (∀ n, stands n ↔ s.Noticed n p ∧ noticeIn n (s.ports.get p).mask = true) →
    ((∀ n, ¬ stands n) → exec (.identify p rest) s = .next (s.answered p (8 + rest.length) .none))
    ∧ ∀ n, stands n → (∀ m, stands m → n.number ≤ m.number) →
      ∃ (t : State) (more : Bool), exec (.identify p rest) s = .next t
        ∧ t = { s.answered p (8 + rest.length) (.identified n more) with ports := t.ports }
        ∧ t.ports.get p.other = s.ports.get p.other
        ∧ t.ports.get p =
            { (s.answered p (8 + rest.length) (.identified n more)).ports.get p with
              notices := (t.ports.get p).notices }
        ∧ (∀ m, t.Noticed m p ↔ s.Noticed m p ∧ m ≠ n)
        ∧ (more = true ↔ ∃ m, stands m ∧ m ≠ n)

/-- R176, R165, R161, R32: STATUS, GET STATION, GET PROFILE and GET ANCHOR are answered with what stands at their
execution, in every state, and change nothing but the exchange itself; GET PROFILE of a band other than 0, 1, 2 is
answered BAD_PARAM. -/
def Obligations.ReadingRequestsAnswerWhatStands : Prop :=
  ∀ (s : State) (p : Port) (rest : List Bool), s.PortsOpen →
    exec (.status p rest) s =
      .next (s.answered p (8 + rest.length) (.statusBlock
        { core := s.settings.core, link := s.intake.link, timing := s.tmu.timing
          attached := (s.readers.get p).attached
          backlog := s.backlog p
          deliveredLength := (s.readers.get p).delivered.length
          fill := s.list.records.length, generation := s.settings.generation
          newest := s.ring.newest.map fun n => n.index
          engine := match (s.ports.get p).engine with
            | .idle => 0
            | .filling _ => 1
            | .ready _ => 2
          notices := (s.ports.get p).notices, mask := (s.ports.get p).mask }))
    ∧ exec (.getStation p rest) s =
      .next (s.answered p (8 + rest.length) (.station s.settings.station s.settings.generation))
    ∧ exec (.getAnchor p rest) s =
      .next (s.answered p (8 + rest.length)
        (.anchors s.tmu.timing s.tmu.holdover s.tmu.latest s.tmu.previous))
    ∧ ∀ (v : Byte) (more : List Bool), rest = bitsOfByte v ++ more →
      (∀ b : Band, v.toNat = b.number →
        exec (.getProfile p rest) s =
          .next (s.answered p (8 + rest.length)
            (.profiles b (s.units.get b).profile (s.units.get b).generation (s.units.get b).staged)))
      ∧ (3 ≤ v.toNat → exec (.getProfile p rest) s = .next (s.answered p (8 + rest.length) .badParam))

/-- R142, R172 to R175: a request too short for its name is answered SHORT, one that names nothing UNKNOWN, an ATTACH of
neither mode BAD_PARAM, and none changes anything else; a transaction without a whole byte keeps the pending response; a
locked-out select shifts out zeros and keeps the response, with the lock-out set while it stays asserted and clear after
its release (that it does so whenever it is sent is the model's choice, notes/assumptions/9.md). -/
def Obligations.RequestsThatNameNothingChangeNothing : Prop :=
  ∀ (s : State) (p : Port) (rest : List Bool), s.PortsOpen →
    (rest.length < 16 → exec (.confirm p rest) s = .next (s.answered p (8 + rest.length) (.short 0x13)))
    ∧ (rest.length < 56 → exec (.fetch p rest) s = .next (s.answered p (8 + rest.length) (.short 0x20)))
    ∧ (rest.length < 8 → exec (.getProfile p rest) s = .next (s.answered p (8 + rest.length) (.short 0x30)))
    ∧ (rest.length < 312 → exec (.setProfile p rest) s = .next (s.answered p (8 + rest.length) (.short 0x31)))
    ∧ (rest.length < 112 → exec (.setStation p rest) s = .next (s.answered p (8 + rest.length) (.short 0x33)))
    ∧ (rest.length < 16 → exec (.setPort p rest) s = .next (s.answered p (8 + rest.length) (.short 0x34)))
    ∧ (rest.length < 8 →
        exec (.attachUnknownMode p rest) s = .next (s.answered p (8 + rest.length) (.short 0x10)))
    ∧ (∀ (mode : Byte) (more : List Bool), rest = bitsOfByte mode ++ more → mode ≠ 0x01 → mode ≠ 0x02 →
        exec (.attachUnknownMode p rest) s = .next (s.answered p (8 + rest.length) .badParam))
    ∧ (∀ code : Byte,
        code ∉ ([0x01, 0x02, 0x10, 0x11, 0x12, 0x13, 0x14, 0x20, 0x21, 0x30, 0x31, 0x32, 0x33, 0x34, 0x40,
          0x41, 0x50, 0x5A] : List Byte) →
        exec (.unknownRequest p code rest) s = .next (s.answered p (8 + rest.length) (.unknown code)))
    ∧ (rest.length < 8 →
        exec (.emptyTransaction p rest) s = .next (s.answered p rest.length (s.ports.get p).response))
    ∧ ∀ (clocks : Nat) (held : Bool),
        exec (.lockedOutSelect p clocks held) s =
          .next (s.setPort p
            { s.ports.get p with lockOut := held, selected := held, dout := List.replicate clocks false })

/-! ### Readers -/

/-- R127, R133, R140 to R142, R154: ATTACH in either mode attaches the reader with an empty sequence, clears (ALL) or
sets (FROM_NOW) its mark on every record, removes what is then removable, evaluates the backlog and answers it. -/
def Obligations.AttachesMarkTheRecords : Prop :=
  ∀ (s : State) (p : Port) (rest : List Bool), s.PortsOpen →
    (∀ (b : Nat) (rd : Reader), b = (s.list.records.filter fun r => r.released).length →
      rd = { s.readers.get p with attached := true, delivered := [] } →
      exec (.attachAll p rest) s =
        .next { s with
          list := { s.list with
            records := s.list.records.map fun r => { r with marks := r.marks.set p false }
            nearFullArmed := s.list.nearFullArmed || decide (s.list.records.length < 48) }
          readers := s.readers.set p (rd.evaluatedAt b)
          ports := s.ports.set p
            { s.ports.get p with
              response := .attached b, lockOut := false, selected := false
              dout := shiftOut (s.ports.get p).response (16 + rest.length)
              notices := rd.noticesAt b (s.ports.get p).notices } })
    ∧ ∀ (left : List Record) (rd : Reader),
      left = s.list.records.filter (fun r => !(r.released
        && (!(s.readers.get p.other).attached || r.marks.get p.other))) →
      rd = { s.readers.get p with attached := true, delivered := [] } →
      exec (.attachFromNow p rest) s =
        .next { s with
          list := { s.list with
            records := left.map fun r => { r with marks := r.marks.set p true }
            nearFullArmed := s.list.nearFullArmed || decide (left.length < 48) }
          readers := s.readers.set p (rd.evaluatedAt 0)
          ports := s.ports.set p
            { s.ports.get p with
              response := .attached 0, lockOut := false, selected := false
              dout := shiftOut (s.ports.get p).response (16 + rest.length)
              notices := rd.noticesAt 0 (s.ports.get p).notices } }

/-- R127, R133, R136, R143, R156, R187: DETACH of an attached reader clears its attached flag, its sequence and its
marks and removes what is then removable; of a detached one it changes nothing. PORT RESET does the same to the reader
and puts its threshold, and the port, into their reset states. -/
def Obligations.DetachAndPortResetClearTheReader : Prop :=
  ∀ (s : State) (p : Port) (rest : List Bool) (left : List Record), s.PortsOpen →
    left = s.list.records.filter (fun r => !(r.released
      && (s.readers.get p.other).attached && r.marks.get p.other)) →
    ((s.readers.get p).attached = false →
      exec (.detach p rest) s = .next (s.answered p (8 + rest.length) .ok))
    ∧ ((s.readers.get p).attached = true →
      exec (.detach p rest) s =
        .next { s.answered p (8 + rest.length) .ok with
          list := { s.list with
            records := left.map fun r => { r with marks := r.marks.set p false }
            nearFullArmed := s.list.nearFullArmed || decide (left.length < 48) }
          readers := s.readers.set p
            { attached := false, delivered := [], threshold := (s.readers.get p).threshold, armed := true } })
    ∧ exec (.portReset p rest) s =
        .next { s with
          list := { s.list with
            records := left.map fun r => { r with marks := r.marks.set p false }
            nearFullArmed := s.list.nearFullArmed || decide (left.length < 48) }
          readers := s.readers.set p { attached := false, delivered := [], threshold := 8, armed := true }
          ports := s.ports.set p
            { response := .nothing, lockOut := false, selected := false, notices := 0, mask := 255
              engine := .idle, dout := shiftOut (s.ports.get p).response (8 + rest.length) }
          clock := { s.clock with fillOrder := s.clock.fillOrder.erase p } }

/-- R134, R145, R154: TAKE answers NOT_ATTACHED, WINDOW_FULL or NONE by the first condition that holds, and changes
nothing; otherwise it delivers the first available record in list order, whose serial joins the end of the sequence,
with the backlog after it. -/
def Obligations.TakeDeliversTheFirstAvailable : Prop :=
  ∀ (s : State) (p : Port) (rest : List Bool) (rd : Reader), s.PortsOpen → rd = s.readers.get p →
    (rd.attached = false → exec (.take p rest) s = .next (s.answered p (8 + rest.length) .notAttached))
    ∧ (rd.attached = true → 16 ≤ rd.delivered.length →
        exec (.take p rest) s = .next (s.answered p (8 + rest.length) .windowFull))
    ∧ (rd.attached = true → rd.delivered.length < 16 → (∀ r ∈ s.list.records, ¬ s.Available p r) →
        exec (.take p rest) s = .next (s.answered p (8 + rest.length) .none))
    ∧ ∀ (before after : List Record) (r : Record) (b : Nat), rd.attached = true → rd.delivered.length < 16 →
        s.list.records = before ++ r :: after → s.Available p r → (∀ x ∈ before, ¬ s.Available p x) →
        s.ListKept → b + 1 = s.backlog p →
        exec (.take p rest) s =
          .next { s with
            readers := s.readers.set p
              ({ rd with delivered := rd.delivered ++ [r.serial] }.evaluatedAt b)
            ports := s.ports.set p
              { s.ports.get p with
                response := .taken b r, lockOut := false, selected := false
                dout := shiftOut (s.ports.get p).response (8 + rest.length)
                notices := rd.noticesAt b (s.ports.get p).notices } }

/-- R127, R133, R148: CONFIRM of a serial in the sequence removes it and those before it from the sequence, sets the
reader's mark on their records and removes those removable; R151: REWIND empties the sequence, and evaluates the backlog
when it held any. Both are answered with the count; detached, or with a serial that is not in the sequence, nothing
changes. -/
def Obligations.ConfirmAndRewindMoveTheSequence : Prop :=
  ∀ (s : State) (p : Port) (rest more : List Bool) (hi lo : Byte) (rd : Reader), s.PortsOpen →
    rd = s.readers.get p →
    (rest = bitsOfBytes [hi, lo] ++ more →
      (rd.attached = false → exec (.confirm p rest) s = .next (s.answered p (8 + rest.length) .notAttached))
      ∧ (rd.attached = true → hi ++ lo ∉ rd.delivered →
          exec (.confirm p rest) s = .next (s.answered p (8 + rest.length) .badParam))
      ∧ ∀ (before after : List Serial) (left : List Record), rd.attached = true →
          rd.delivered = before ++ (hi ++ lo) :: after → hi ++ lo ∉ before →
          left = s.list.records.filter (fun r =>
            !((before ++ [hi ++ lo]).contains r.serial && r.released
              && (!(s.readers.get p.other).attached || r.marks.get p.other))) →
          exec (.confirm p rest) s =
            .next { s.answered p (8 + rest.length) (.counted (before.length + 1)) with
              readers := s.readers.set p { rd with delivered := after }
              list := { s.list with
                records := left.map fun r =>
                  if (before ++ [hi ++ lo]).contains r.serial then { r with marks := r.marks.set p true } else r
                nearFullArmed := s.list.nearFullArmed || decide (left.length < 48) } })
    ∧ (rd.attached = false → exec (.rewind p rest) s = .next (s.answered p (8 + rest.length) .notAttached))
    ∧ (rd.attached = true → rd.delivered = [] →
        exec (.rewind p rest) s = .next (s.answered p (8 + rest.length) (.counted 0)))
    ∧ (rd.attached = true → rd.delivered ≠ [] → s.ListKept → s.ReadersKept →
        exec (.rewind p rest) s =
          .next { s with
            readers := s.readers.set p
              ({ rd with delivered := [] }.evaluatedAt (s.backlog p + rd.delivered.length))
            ports := s.ports.set p
              { s.ports.get p with
                response := .counted rd.delivered.length, lockOut := false, selected := false
                dout := shiftOut (s.ports.get p).response (8 + rest.length)
                notices := rd.noticesAt (s.backlog p + rd.delivered.length) (s.ports.get p).notices } })

/-! ### Fetches -/

/-- R182, R183: FETCH is checked in order: a count outside 1 … 256 is BAD_PARAM, an empty ring NOT_YET, a start not
held GONE or NOT_YET, an end past the newest NOT_YET, each with the range held and no other effect; an accepted FETCH
replaces the port's fetch and starts filling. -/
def Obligations.FetchesAreCheckedAndBegun : Prop :=
  ∀ (s : State) (p : Port) (rest more : List Bool) (i3 i2 i1 i0 hi lo m : Byte) (start : Index) (count : Nat),
    s.PortsOpen → rest = bitsOfBytes [i3, i2, i1, i0, hi, lo, m] ++ more → start = i3 ++ i2 ++ i1 ++ i0 →
    count = 256 * hi.toNat + lo.toNat →
    (count = 0 ∨ 256 < count → exec (.fetch p rest) s = .next (s.answered p (8 + rest.length) .badParam))
    ∧ (1 ≤ count → count ≤ 256 → s.ring.newest = none →
        exec (.fetch p rest) s = .next (s.answered p (8 + rest.length) (.notYetHeld none)))
    ∧ ∀ (n : Newest) (oldest last : Index), 1 ≤ count → count ≤ 256 → s.ring.newest = some n →
        oldest = n.index - BitVec.ofNat 32 s.ring.written + 1 → last = start + BitVec.ofNat 32 count - 1 →
        (s.ring.written ≤ (n.index - start).toNat → earlier n.index start = true →
          exec (.fetch p rest) s =
            .next (s.answered p (8 + rest.length) (.notYetHeld (some (oldest, n.index)))))
        ∧ (s.ring.written ≤ (n.index - start).toNat → earlier n.index start = false →
          exec (.fetch p rest) s = .next (s.answered p (8 + rest.length) (.gone (some (oldest, n.index)))))
        ∧ ((n.index - start).toNat < s.ring.written → earlier n.index last = true →
          exec (.fetch p rest) s =
            .next (s.answered p (8 + rest.length) (.notYetHeld (some (oldest, n.index)))))
        ∧ ((n.index - start).toNat < s.ring.written → earlier n.index last = false →
          exec (.fetch p rest) s =
            .next { s with
              ports := s.ports.set p
                { s.ports.get p with
                  response := .ok, lockOut := false, selected := false
                  dout := shiftOut (s.ports.get p).response (8 + rest.length)
                  engine := .filling
                    { start := start, count := count
                      mask := { b0 := m.getLsbD 0, b1 := m.getLsbD 1, b2 := m.getLsbD 2 }
                      returned := 0, buffer := [] } }
              clock := { s.clock with fillOrder := s.clock.fillOrder.erase p ++ [p] } })

/-- R185: READ FETCH answers NONE in IDLE and NOT_YET while no slot read is left to return; otherwise it returns the
next slots, at most 16, with how many are still to come, and the engine is IDLE once all have been returned. -/
def Obligations.ReadFetchReturnsTheNextSlots : Prop :=
  ∀ (s : State) (p : Port) (rest : List Bool), s.PortsOpen →
    ((s.ports.get p).engine = .idle → exec (.readFetch p rest) s = .next (s.answered p (8 + rest.length) .none))
    ∧ (∀ f, (s.ports.get p).engine = .filling f → f.buffer.length = f.returned →
        exec (.readFetch p rest) s = .next (s.answered p (8 + rest.length) .notYet))
    ∧ ∀ (f : Fetch) (slots : List ReadResult) (f' : Fetch) (t : FetchEngine → State), s.EnginesKept →
        slots = (f.buffer.drop f.returned).take 16 →
        f' = { f with returned := f.returned + min 16 (f.buffer.length - f.returned) } →
        (∀ e, t e = s.setPort p
          { s.ports.get p with
            response := .slots (f.count - f'.returned) f.mask slots, lockOut := false, selected := false
            dout := shiftOut (s.ports.get p).response (8 + rest.length)
            engine := e }) →
        ((s.ports.get p).engine = .filling f → f.returned < f.buffer.length →
          exec (.readFetch p rest) s = .next (t (.filling f')))
        ∧ ((s.ports.get p).engine = .ready f → f.count - f.returned ≤ 16 →
          exec (.readFetch p rest) s = .next (t .idle))
        ∧ ((s.ports.get p).engine = .ready f → 16 < f.count - f.returned →
          exec (.readFetch p rest) s = .next (t (.ready f')))

/-! ### Settings and core control -/

/-- R82 to R84, R157 to R159, R166: SET PROFILE clamps the profile, gives it the next generation, and applies it, or
stages it while the band is PENDING or DECLARED; a change of a shift restarts a band that is not OFF; SETTINGS is raised
on the other port. A band other than 0, 1, 2 is BAD_PARAM. -/
def Obligations.SetProfileAppliesOrStages : Prop :=
  ∀ (s : State) (p : Port) (rest more : List Bool) (v : Byte) (written given : Profile), s.PortsOpen →
    s.owed = Owed.nothing →
    (∀ x ∈ profileWords written, x < 65536) →
    rest = bitsOfBytes (v :: (profileWords written).flatMap
      fun x => [BitVec.ofNat 8 (x / 256), BitVec.ofNat 8 x]) ++ more →
    given = clampProfile written →
    (3 ≤ v.toNat → exec (.setProfile p rest) s = .next (s.answered p (8 + rest.length) .badParam))
    ∧ ∀ (b : Band) (u : TriggerUnit) (same : Prop) (t : TriggerUnit → Bool → State), v.toNat = b.number →
        u = s.units.get b →
        (same ↔ given.fastShift = u.profile.fastShift ∧ given.slowShift = u.profile.slowShift
          ∧ given.staShift = u.profile.staShift ∧ given.ltaShift = u.profile.ltaShift) →
        (∀ w staged, t w staged = raise .settings p.other
          { s.answered p (8 + rest.length)
              (.profileSet (decide (given ≠ written)) (s.settings.generation + 1) staged) with
            settings := { s.settings with generation := s.settings.generation + 1 }
            units := s.units.set b w }) →
        ((u.state = .pending ∨ u.state = .declared) →
          exec (.setProfile p rest) s =
            .next (t { u with staged := some { profile := given, generation := s.settings.generation + 1 } } true))
        ∧ ((u.state = .off ∨ ((u.state = .warming ∨ u.state = .idle ∨ u.state = .cooldown) ∧ same)) →
          exec (.setProfile p rest) s =
            .next (t
              { u with profile := given, generation := s.settings.generation + 1, staged := none } false))
        ∧ ((u.state = .warming ∨ u.state = .idle ∨ u.state = .cooldown) → ¬ same →
          exec (.setProfile p rest) s =
            .next (t
              { u with profile := given, generation := s.settings.generation + 1, staged := none
                       state := .warming, warmCount := 0, rewarm := false } false))

/-- R6, R20, R162 to R164, R166: SET STATION is accepted while STOPPED, or while RUNNING when the link divider alone
differs: the clamped settings come into force with the next generation and SETTINGS on the other port; a changed divider
restarts the receiver and the assembler, and takes a RUNNING link to LOST with the slot write of its GAP slot. Otherwise
it is BUSY and changes nothing. That the gap-slot timer then runs at the fps just accepted, the acceptance instant of
that slot, the instant of the next sample, and that the BEGIN record is inserted after what that slot write itself takes
and before a handling of the list that is owed (R123 leaves it open) are the model's (notes/assumptions/15.md, 20.md,
21.md and 4.md). -/
def Obligations.SetStationIsAcceptedOrBusy : Prop :=
  ∀ (s : State) (p : Port) (rest more : List Bool) (written given : Station) (accepted : State), s.PortsOpen →
    s.owed = Owed.nothing →
    (∀ x ∈ stationWords written, x < 65536) →
    rest = bitsOfBytes ((stationWords written).flatMap
      fun x => [BitVec.ofNat 8 (x / 256), BitVec.ofNat 8 x]) ++ more →
    given = clampStation written →
    accepted = raise .settings p.other
      { s.answered p (8 + rest.length)
          (.stationSet (decide (given ≠ written)) (s.settings.generation + 1)) with
        settings := { s.settings with station := given, generation := s.settings.generation + 1 } } →
    (s.settings.core = .running → (given.linkDivider = s.settings.station.linkDivider ∨ s.Settled) →
      given ≠ { s.settings.station with linkDivider := given.linkDivider } →
      exec (.setStation p rest) s = .next (s.answered p (8 + rest.length) .busy))
    ∧ ((s.settings.core = .stopped ∨ given = { s.settings.station with linkDivider := given.linkDivider }) →
      (given.linkDivider = s.settings.station.linkDivider →
        exec (.setStation p rest) s = .next accepted)
      ∧ (given.linkDivider ≠ s.settings.station.linkDivider → s.Settled → s.intake.link ≠ .running →
        exec (.setStation p rest) s =
          .next (accepted.setIntake
            { s.intake with
              nextSample := s.clock.now + (given.linkDivider + 1)
              receiver := { s.intake.receiver with busy := none }, assembler := .hunting }))
      ∧ (∀ last, given.linkDivider ≠ s.settings.station.linkDivider → s.Settled → s.intake.link = .running →
        s.intake.lastGood = some last →
        ∃ t, exec (.setStation p rest) s = .next t
          ∧ t.settings = accepted.settings
          ∧ { t with ports := s.ports } =
              { raise .intake .b (raise .intake .a (insertRecord s.intake.nextIndex (.intake .begins)
                  (writeSlot .gap last (accepted.setIntake
                    { s.intake with
                      nextSample := s.clock.now + (given.linkDivider + 1)
                      receiver := { s.intake.receiver with busy := none }, assembler := .hunting
                      link := .lost, expected := none, linkTimer := none
                      gapSlotTimer := some (s.clock.now + 24576000 / given.fps) })))) with
                ports := s.ports }
          ∧ t.intake =
              { s.intake with
                nextSample := s.clock.now + (given.linkDivider + 1)
                receiver := { s.intake.receiver with busy := none }, assembler := .hunting
                link := .lost, nextIndex := s.intake.nextIndex + 1, expected := none, linkTimer := none
                gapSlotTimer := some (s.clock.now + 24576000 / given.fps)
                gapRun := min (s.intake.gapRun + 1) 65535 }
          ∧ t.WroteSlot s.intake.nextIndex s.clock.now last false true
          ∧ t.HasRecord s.intake.nextIndex (.intake .begins) ∧ (∀ q, t.Noticed .intake q)
          ∧ t.Noticed .settings p.other
          ∧ (t.ports.get p).response = (accepted.ports.get p).response))

/-- R154, R155, R158, R167, R181: SET PORT puts the clamped threshold and the mask of its own port in force at once and
evaluates the backlog; it is answered OK, or ADJUSTED when the threshold was clamped. -/
def Obligations.SetPortTakesEffectAtOnce : Prop :=
  ∀ (s : State) (p : Port) (rest more : List Bool) (threshold mask : Byte) (rd : Reader), s.PortsOpen →
    rest = bitsOfBytes [threshold, mask] ++ more →
    rd = { s.readers.get p with threshold := max 1 (min 64 threshold.toNat) } →
    exec (.setPort p rest) s =
      .next { s with
        readers := s.readers.set p (rd.evaluatedAt (s.backlog p))
        ports := s.ports.set p
          { s.ports.get p with
            response := if 1 ≤ threshold.toNat ∧ threshold.toNat ≤ 64 then .ok else .adjusted
            lockOut := false, selected := false
            dout := shiftOut (s.ports.get p).response (8 + rest.length)
            mask := mask
            notices := rd.noticesAt (s.backlog p) (s.ports.get p).notices } }

/-- R85, R168: START from STOPPED sets the core RUNNING, every band WARMING from zero, and raises CORE on both ports.
R54, R86, R116, R169: STOP from RUNNING sets it STOPPED, every band OFF with its staged profile applied, the filter
averages 0, the queue and lanes empty with the history kept, and raises CORE on both ports. Otherwise both are answered
OK and change nothing. -/
def Obligations.StartAndStopSetTheCore : Prop :=
  ∀ (s : State) (p : Port) (rest : List Bool) (answered : State), s.PortsOpen →
    s.owed = Owed.nothing →
    answered = s.answered p (8 + rest.length) .ok →
    (s.settings.core = .running → exec (.start p rest) s = .next answered)
    ∧ (s.settings.core = .stopped → exec (.stop p rest) s = .next answered)
    ∧ (s.settings.core = .stopped →
      ∃ t, exec (.start p rest) s = .next t
        ∧ t = raise .core .b (raise .core .a
            { answered with settings := { s.settings with core := .running }, units := t.units })
        ∧ ∀ b, t.units.get b =
            { s.units.get b with
              state := .warming, sta := 0, lta := 0, warmCount := 0, rewarm := false
              frozenLta := none, tOn := none, tOn2 := none })
    ∧ (s.settings.core = .running →
      ∃ t, exec (.stop p rest) s = .next t
        ∧ t = raise .core .b (raise .core .a
            { answered with
              settings := { s.settings with core := .stopped }
              units := t.units
              filters := Bands.all (Comps.all { fast := 0, slow := 0 })
              refiner := { queue := [], lanes := Lanes.all .free, history := s.refiner.history } })
        ∧ ∀ b,
          ((s.units.get b).staged = none → t.units.get b = { s.units.get b with state := .off })
          ∧ ∀ g, (s.units.get b).staged = some g →
              t.units.get b =
                { s.units.get b with
                  state := .off, profile := g.profile, generation := g.generation, staged := none })
end

