-- ==== Sys2Proof/Laws/State.lean ====
section
/-! SUPPORT. The small lemmas of the containers and of the state's updates: what each leaves and what it changes. -/

namespace Sys2Proof.Machine

/-! ### Bands, ports, lanes -/

@[simp] theorem Bands.get_set_same {α : Type} (x : Bands α) (b : Band) (v : α) : (x.set b v).get b = v := by
  cases b <;> rfl

theorem Bands.get_set_other {α : Type} (x : Bands α) {b c : Band} (v : α) (h : c ≠ b) :
    (x.set b v).get c = x.get c := by
  cases b <;> cases c <;> first | rfl | exact absurd rfl h

theorem Bands.get_set {α : Type} (x : Bands α) (b c : Band) (v : α) :
    (x.set b v).get c = if c = b then v else x.get c := by
  cases b <;> cases c <;> rfl

@[simp] theorem Bands.get_all {α : Type} (v : α) (b : Band) : (Bands.all v).get b = v := by cases b <;> rfl

@[simp] theorem Bands.set_get {α : Type} (x : Bands α) (b : Band) : x.set b (x.get b) = x := by cases b <;> rfl

@[simp] theorem Ports.get_set_same {α : Type} (x : Ports α) (p : Port) (v : α) : (x.set p v).get p = v := by
  cases p <;> rfl

theorem Ports.get_set_other {α : Type} (x : Ports α) {p q : Port} (v : α) (h : q ≠ p) :
    (x.set p v).get q = x.get q := by
  cases p <;> cases q <;> first | rfl | exact absurd rfl h

theorem Ports.get_set {α : Type} (x : Ports α) (p q : Port) (v : α) :
    (x.set p v).get q = if q = p then v else x.get q := by
  cases p <;> cases q <;> rfl

@[simp] theorem Ports.get_all {α : Type} (v : α) (p : Port) : (Ports.all v).get p = v := by cases p <;> rfl

@[simp] theorem Ports.set_get {α : Type} (x : Ports α) (p : Port) : x.set p (x.get p) = x := by cases p <;> rfl

@[simp] theorem Ports.set_set {α : Type} (x : Ports α) (p : Port) (v w : α) : (x.set p v).set p w = x.set p w := by
  cases p <;> rfl

@[simp] theorem Port.other_ne (p : Port) : p.other ≠ p := by cases p <;> decide

@[simp] theorem Lanes.get_set_same {α : Type} (x : Lanes α) (l : LaneId) (v : α) : (x.set l v).get l = v := by
  cases l <;> rfl

theorem Lanes.get_set {α : Type} (x : Lanes α) (l m : LaneId) (v : α) :
    (x.set l v).get m = if m = l then v else x.get m := by
  cases l <;> cases m <;> rfl

@[simp] theorem Lanes.get_all {α : Type} (v : α) (l : LaneId) : (Lanes.all v).get l = v := by cases l <;> rfl

theorem Bands.ext_get {α : Type} {x y : Bands α} (h : ∀ b, x.get b = y.get b) : x = y := by
  have h0 := h .b0
  have h1 := h .b1
  have h2 := h .b2
  cases x
  cases y
  simp only [Bands.get] at h0 h1 h2
  subst h0 h1 h2
  rfl

theorem Ports.ext_get {α : Type} {x y : Ports α} (h : ∀ p, x.get p = y.get p) : x = y := by
  have ha := h .a
  have hb := h .b
  cases x
  cases y
  simp only [Ports.get] at ha hb
  subst ha hb
  rfl

/-! ### One update, one field -/

@[simp] theorem State.setPort_intake (s : State) (p : Port) (v : PortInterface) : (s.setPort p v).intake = s.intake := rfl
@[simp] theorem State.setPort_tmu (s : State) (p : Port) (v : PortInterface) : (s.setPort p v).tmu = s.tmu := rfl
@[simp] theorem State.setPort_filters (s : State) (p : Port) (v : PortInterface) : (s.setPort p v).filters = s.filters := rfl
@[simp] theorem State.setPort_ring (s : State) (p : Port) (v : PortInterface) : (s.setPort p v).ring = s.ring := rfl
@[simp] theorem State.setPort_units (s : State) (p : Port) (v : PortInterface) : (s.setPort p v).units = s.units := rfl
@[simp] theorem State.setPort_refiner (s : State) (p : Port) (v : PortInterface) : (s.setPort p v).refiner = s.refiner := rfl
@[simp] theorem State.setPort_list (s : State) (p : Port) (v : PortInterface) : (s.setPort p v).list = s.list := rfl
@[simp] theorem State.setPort_readers (s : State) (p : Port) (v : PortInterface) : (s.setPort p v).readers = s.readers := rfl
@[simp] theorem State.setPort_settings (s : State) (p : Port) (v : PortInterface) : (s.setPort p v).settings = s.settings := rfl
@[simp] theorem State.setPort_ports (s : State) (p : Port) (v : PortInterface) : (s.setPort p v).ports = s.ports.set p v := rfl
@[simp] theorem State.setPort_clock (s : State) (p : Port) (v : PortInterface) : (s.setPort p v).clock = s.clock := rfl
@[simp] theorem State.setPort_owed (s : State) (p : Port) (v : PortInterface) : (s.setPort p v).owed = s.owed := rfl
@[simp] theorem State.setPort_pending (s : State) (p : Port) (v : PortInterface) : (s.setPort p v).pending = s.pending := rfl
@[simp] theorem State.setPort_resetHeld (s : State) (p : Port) (v : PortInterface) : (s.setPort p v).resetHeld = s.resetHeld := rfl

@[simp] theorem State.setReader_intake (s : State) (p : Port) (v : Reader) : (s.setReader p v).intake = s.intake := rfl
@[simp] theorem State.setReader_tmu (s : State) (p : Port) (v : Reader) : (s.setReader p v).tmu = s.tmu := rfl
@[simp] theorem State.setReader_filters (s : State) (p : Port) (v : Reader) : (s.setReader p v).filters = s.filters := rfl
@[simp] theorem State.setReader_ring (s : State) (p : Port) (v : Reader) : (s.setReader p v).ring = s.ring := rfl
@[simp] theorem State.setReader_units (s : State) (p : Port) (v : Reader) : (s.setReader p v).units = s.units := rfl
@[simp] theorem State.setReader_refiner (s : State) (p : Port) (v : Reader) : (s.setReader p v).refiner = s.refiner := rfl
@[simp] theorem State.setReader_list (s : State) (p : Port) (v : Reader) : (s.setReader p v).list = s.list := rfl
@[simp] theorem State.setReader_readers (s : State) (p : Port) (v : Reader) : (s.setReader p v).readers = s.readers.set p v := rfl
@[simp] theorem State.setReader_settings (s : State) (p : Port) (v : Reader) : (s.setReader p v).settings = s.settings := rfl
@[simp] theorem State.setReader_ports (s : State) (p : Port) (v : Reader) : (s.setReader p v).ports = s.ports := rfl
@[simp] theorem State.setReader_clock (s : State) (p : Port) (v : Reader) : (s.setReader p v).clock = s.clock := rfl
@[simp] theorem State.setReader_owed (s : State) (p : Port) (v : Reader) : (s.setReader p v).owed = s.owed := rfl
@[simp] theorem State.setReader_pending (s : State) (p : Port) (v : Reader) : (s.setReader p v).pending = s.pending := rfl
@[simp] theorem State.setReader_resetHeld (s : State) (p : Port) (v : Reader) : (s.setReader p v).resetHeld = s.resetHeld := rfl

@[simp] theorem State.setRecords_intake (s : State) (v : List Record) : (s.setRecords v).intake = s.intake := rfl
@[simp] theorem State.setRecords_tmu (s : State) (v : List Record) : (s.setRecords v).tmu = s.tmu := rfl
@[simp] theorem State.setRecords_filters (s : State) (v : List Record) : (s.setRecords v).filters = s.filters := rfl
@[simp] theorem State.setRecords_ring (s : State) (v : List Record) : (s.setRecords v).ring = s.ring := rfl
@[simp] theorem State.setRecords_units (s : State) (v : List Record) : (s.setRecords v).units = s.units := rfl
@[simp] theorem State.setRecords_refiner (s : State) (v : List Record) : (s.setRecords v).refiner = s.refiner := rfl
@[simp] theorem State.setRecords_list (s : State) (v : List Record) : (s.setRecords v).list = { s.list with records := v } := rfl
@[simp] theorem State.setRecords_readers (s : State) (v : List Record) : (s.setRecords v).readers = s.readers := rfl
@[simp] theorem State.setRecords_settings (s : State) (v : List Record) : (s.setRecords v).settings = s.settings := rfl
@[simp] theorem State.setRecords_ports (s : State) (v : List Record) : (s.setRecords v).ports = s.ports := rfl
@[simp] theorem State.setRecords_clock (s : State) (v : List Record) : (s.setRecords v).clock = s.clock := rfl
@[simp] theorem State.setRecords_owed (s : State) (v : List Record) : (s.setRecords v).owed = s.owed := rfl
@[simp] theorem State.setRecords_pending (s : State) (v : List Record) : (s.setRecords v).pending = s.pending := rfl
@[simp] theorem State.setRecords_resetHeld (s : State) (v : List Record) : (s.setRecords v).resetHeld = s.resetHeld := rfl

@[simp] theorem State.setUnit_intake (s : State) (b : Band) (v : TriggerUnit) : (s.setUnit b v).intake = s.intake := rfl
@[simp] theorem State.setUnit_tmu (s : State) (b : Band) (v : TriggerUnit) : (s.setUnit b v).tmu = s.tmu := rfl
@[simp] theorem State.setUnit_filters (s : State) (b : Band) (v : TriggerUnit) : (s.setUnit b v).filters = s.filters := rfl
@[simp] theorem State.setUnit_ring (s : State) (b : Band) (v : TriggerUnit) : (s.setUnit b v).ring = s.ring := rfl
@[simp] theorem State.setUnit_units (s : State) (b : Band) (v : TriggerUnit) : (s.setUnit b v).units = s.units.set b v := rfl
@[simp] theorem State.setUnit_refiner (s : State) (b : Band) (v : TriggerUnit) : (s.setUnit b v).refiner = s.refiner := rfl
@[simp] theorem State.setUnit_list (s : State) (b : Band) (v : TriggerUnit) : (s.setUnit b v).list = s.list := rfl
@[simp] theorem State.setUnit_readers (s : State) (b : Band) (v : TriggerUnit) : (s.setUnit b v).readers = s.readers := rfl
@[simp] theorem State.setUnit_settings (s : State) (b : Band) (v : TriggerUnit) : (s.setUnit b v).settings = s.settings := rfl
@[simp] theorem State.setUnit_ports (s : State) (b : Band) (v : TriggerUnit) : (s.setUnit b v).ports = s.ports := rfl
@[simp] theorem State.setUnit_clock (s : State) (b : Band) (v : TriggerUnit) : (s.setUnit b v).clock = s.clock := rfl
@[simp] theorem State.setUnit_owed (s : State) (b : Band) (v : TriggerUnit) : (s.setUnit b v).owed = s.owed := rfl
@[simp] theorem State.setUnit_pending (s : State) (b : Band) (v : TriggerUnit) : (s.setUnit b v).pending = s.pending := rfl
@[simp] theorem State.setUnit_resetHeld (s : State) (b : Band) (v : TriggerUnit) : (s.setUnit b v).resetHeld = s.resetHeld := rfl

@[simp] theorem State.setLane_intake (s : State) (l : LaneId) (v : Lane) : (s.setLane l v).intake = s.intake := rfl
@[simp] theorem State.setLane_tmu (s : State) (l : LaneId) (v : Lane) : (s.setLane l v).tmu = s.tmu := rfl
@[simp] theorem State.setLane_filters (s : State) (l : LaneId) (v : Lane) : (s.setLane l v).filters = s.filters := rfl
@[simp] theorem State.setLane_ring (s : State) (l : LaneId) (v : Lane) : (s.setLane l v).ring = s.ring := rfl
@[simp] theorem State.setLane_units (s : State) (l : LaneId) (v : Lane) : (s.setLane l v).units = s.units := rfl
@[simp] theorem State.setLane_refiner (s : State) (l : LaneId) (v : Lane) : (s.setLane l v).refiner = { s.refiner with lanes := s.refiner.lanes.set l v } := rfl
@[simp] theorem State.setLane_list (s : State) (l : LaneId) (v : Lane) : (s.setLane l v).list = s.list := rfl
@[simp] theorem State.setLane_readers (s : State) (l : LaneId) (v : Lane) : (s.setLane l v).readers = s.readers := rfl
@[simp] theorem State.setLane_settings (s : State) (l : LaneId) (v : Lane) : (s.setLane l v).settings = s.settings := rfl
@[simp] theorem State.setLane_ports (s : State) (l : LaneId) (v : Lane) : (s.setLane l v).ports = s.ports := rfl
@[simp] theorem State.setLane_clock (s : State) (l : LaneId) (v : Lane) : (s.setLane l v).clock = s.clock := rfl
@[simp] theorem State.setLane_owed (s : State) (l : LaneId) (v : Lane) : (s.setLane l v).owed = s.owed := rfl
@[simp] theorem State.setLane_pending (s : State) (l : LaneId) (v : Lane) : (s.setLane l v).pending = s.pending := rfl
@[simp] theorem State.setLane_resetHeld (s : State) (l : LaneId) (v : Lane) : (s.setLane l v).resetHeld = s.resetHeld := rfl

@[simp] theorem State.setQueue_intake (s : State) (v : List Request) : (s.setQueue v).intake = s.intake := rfl
@[simp] theorem State.setQueue_tmu (s : State) (v : List Request) : (s.setQueue v).tmu = s.tmu := rfl
@[simp] theorem State.setQueue_filters (s : State) (v : List Request) : (s.setQueue v).filters = s.filters := rfl
@[simp] theorem State.setQueue_ring (s : State) (v : List Request) : (s.setQueue v).ring = s.ring := rfl
@[simp] theorem State.setQueue_units (s : State) (v : List Request) : (s.setQueue v).units = s.units := rfl
@[simp] theorem State.setQueue_refiner (s : State) (v : List Request) : (s.setQueue v).refiner = { s.refiner with queue := v } := rfl
@[simp] theorem State.setQueue_list (s : State) (v : List Request) : (s.setQueue v).list = s.list := rfl
@[simp] theorem State.setQueue_readers (s : State) (v : List Request) : (s.setQueue v).readers = s.readers := rfl
@[simp] theorem State.setQueue_settings (s : State) (v : List Request) : (s.setQueue v).settings = s.settings := rfl
@[simp] theorem State.setQueue_ports (s : State) (v : List Request) : (s.setQueue v).ports = s.ports := rfl
@[simp] theorem State.setQueue_clock (s : State) (v : List Request) : (s.setQueue v).clock = s.clock := rfl
@[simp] theorem State.setQueue_owed (s : State) (v : List Request) : (s.setQueue v).owed = s.owed := rfl
@[simp] theorem State.setQueue_pending (s : State) (v : List Request) : (s.setQueue v).pending = s.pending := rfl
@[simp] theorem State.setQueue_resetHeld (s : State) (v : List Request) : (s.setQueue v).resetHeld = s.resetHeld := rfl

@[simp] theorem State.setOwed_intake (s : State) (v : Owed) : (s.setOwed v).intake = s.intake := rfl
@[simp] theorem State.setOwed_tmu (s : State) (v : Owed) : (s.setOwed v).tmu = s.tmu := rfl
@[simp] theorem State.setOwed_filters (s : State) (v : Owed) : (s.setOwed v).filters = s.filters := rfl
@[simp] theorem State.setOwed_ring (s : State) (v : Owed) : (s.setOwed v).ring = s.ring := rfl
@[simp] theorem State.setOwed_units (s : State) (v : Owed) : (s.setOwed v).units = s.units := rfl
@[simp] theorem State.setOwed_refiner (s : State) (v : Owed) : (s.setOwed v).refiner = s.refiner := rfl
@[simp] theorem State.setOwed_list (s : State) (v : Owed) : (s.setOwed v).list = s.list := rfl
@[simp] theorem State.setOwed_readers (s : State) (v : Owed) : (s.setOwed v).readers = s.readers := rfl
@[simp] theorem State.setOwed_settings (s : State) (v : Owed) : (s.setOwed v).settings = s.settings := rfl
@[simp] theorem State.setOwed_ports (s : State) (v : Owed) : (s.setOwed v).ports = s.ports := rfl
@[simp] theorem State.setOwed_clock (s : State) (v : Owed) : (s.setOwed v).clock = s.clock := rfl
@[simp] theorem State.setOwed_owed (s : State) (v : Owed) : (s.setOwed v).owed = v := rfl
@[simp] theorem State.setOwed_pending (s : State) (v : Owed) : (s.setOwed v).pending = s.pending := rfl
@[simp] theorem State.setOwed_resetHeld (s : State) (v : Owed) : (s.setOwed v).resetHeld = s.resetHeld := rfl

@[simp] theorem State.setTmu_intake (s : State) (v : TimeMarkUnit) : (s.setTmu v).intake = s.intake := rfl
@[simp] theorem State.setTmu_tmu (s : State) (v : TimeMarkUnit) : (s.setTmu v).tmu = v := rfl
@[simp] theorem State.setTmu_filters (s : State) (v : TimeMarkUnit) : (s.setTmu v).filters = s.filters := rfl
@[simp] theorem State.setTmu_ring (s : State) (v : TimeMarkUnit) : (s.setTmu v).ring = s.ring := rfl
@[simp] theorem State.setTmu_units (s : State) (v : TimeMarkUnit) : (s.setTmu v).units = s.units := rfl
@[simp] theorem State.setTmu_refiner (s : State) (v : TimeMarkUnit) : (s.setTmu v).refiner = s.refiner := rfl
@[simp] theorem State.setTmu_list (s : State) (v : TimeMarkUnit) : (s.setTmu v).list = s.list := rfl
@[simp] theorem State.setTmu_readers (s : State) (v : TimeMarkUnit) : (s.setTmu v).readers = s.readers := rfl
@[simp] theorem State.setTmu_settings (s : State) (v : TimeMarkUnit) : (s.setTmu v).settings = s.settings := rfl
@[simp] theorem State.setTmu_ports (s : State) (v : TimeMarkUnit) : (s.setTmu v).ports = s.ports := rfl
@[simp] theorem State.setTmu_clock (s : State) (v : TimeMarkUnit) : (s.setTmu v).clock = s.clock := rfl
@[simp] theorem State.setTmu_owed (s : State) (v : TimeMarkUnit) : (s.setTmu v).owed = s.owed := rfl
@[simp] theorem State.setTmu_pending (s : State) (v : TimeMarkUnit) : (s.setTmu v).pending = s.pending := rfl
@[simp] theorem State.setTmu_resetHeld (s : State) (v : TimeMarkUnit) : (s.setTmu v).resetHeld = s.resetHeld := rfl

@[simp] theorem State.setIntake_intake (s : State) (v : FrameIntake) : (s.setIntake v).intake = v := rfl
@[simp] theorem State.setIntake_tmu (s : State) (v : FrameIntake) : (s.setIntake v).tmu = s.tmu := rfl
@[simp] theorem State.setIntake_filters (s : State) (v : FrameIntake) : (s.setIntake v).filters = s.filters := rfl
@[simp] theorem State.setIntake_ring (s : State) (v : FrameIntake) : (s.setIntake v).ring = s.ring := rfl
@[simp] theorem State.setIntake_units (s : State) (v : FrameIntake) : (s.setIntake v).units = s.units := rfl
@[simp] theorem State.setIntake_refiner (s : State) (v : FrameIntake) : (s.setIntake v).refiner = s.refiner := rfl
@[simp] theorem State.setIntake_list (s : State) (v : FrameIntake) : (s.setIntake v).list = s.list := rfl
@[simp] theorem State.setIntake_readers (s : State) (v : FrameIntake) : (s.setIntake v).readers = s.readers := rfl
@[simp] theorem State.setIntake_settings (s : State) (v : FrameIntake) : (s.setIntake v).settings = s.settings := rfl
@[simp] theorem State.setIntake_ports (s : State) (v : FrameIntake) : (s.setIntake v).ports = s.ports := rfl
@[simp] theorem State.setIntake_clock (s : State) (v : FrameIntake) : (s.setIntake v).clock = s.clock := rfl
@[simp] theorem State.setIntake_owed (s : State) (v : FrameIntake) : (s.setIntake v).owed = s.owed := rfl
@[simp] theorem State.setIntake_pending (s : State) (v : FrameIntake) : (s.setIntake v).pending = s.pending := rfl
@[simp] theorem State.setIntake_resetHeld (s : State) (v : FrameIntake) : (s.setIntake v).resetHeld = s.resetHeld := rfl

@[simp] theorem State.setNow_intake (s : State) (v : Nat) : (s.setNow v).intake = s.intake := rfl
@[simp] theorem State.setNow_tmu (s : State) (v : Nat) : (s.setNow v).tmu = s.tmu := rfl
@[simp] theorem State.setNow_filters (s : State) (v : Nat) : (s.setNow v).filters = s.filters := rfl
@[simp] theorem State.setNow_ring (s : State) (v : Nat) : (s.setNow v).ring = s.ring := rfl
@[simp] theorem State.setNow_units (s : State) (v : Nat) : (s.setNow v).units = s.units := rfl
@[simp] theorem State.setNow_refiner (s : State) (v : Nat) : (s.setNow v).refiner = s.refiner := rfl
@[simp] theorem State.setNow_list (s : State) (v : Nat) : (s.setNow v).list = s.list := rfl
@[simp] theorem State.setNow_readers (s : State) (v : Nat) : (s.setNow v).readers = s.readers := rfl
@[simp] theorem State.setNow_settings (s : State) (v : Nat) : (s.setNow v).settings = s.settings := rfl
@[simp] theorem State.setNow_ports (s : State) (v : Nat) : (s.setNow v).ports = s.ports := rfl
@[simp] theorem State.setNow_clock (s : State) (v : Nat) : (s.setNow v).clock = { s.clock with now := v } := rfl
@[simp] theorem State.setNow_owed (s : State) (v : Nat) : (s.setNow v).owed = s.owed := rfl
@[simp] theorem State.setNow_pending (s : State) (v : Nat) : (s.setNow v).pending = s.pending := rfl
@[simp] theorem State.setNow_resetHeld (s : State) (v : Nat) : (s.setNow v).resetHeld = s.resetHeld := rfl

end Sys2Proof.Machine
end

