-- ==== Sys2Proof/Laws/Frames.lean ====
section
/-! SUPPORT. Frames of the shared operations: for each, once, the blocks it may change. Every operation here
changes a port's interface by raising notices only. -/

namespace Sys2Proof.Machine

/-! ### Notices -/

theorem noticeIn_noticeAdd (n m : Notice) (set : BitVec 8) :
    noticeIn m (noticeAdd n set) = (noticeIn m set || decide (m = n)) := by
  cases n <;> cases m <;> simp [noticeIn, noticeAdd, Notice.bit]

/-- An interface that differs from another by raised notices only. -/
def Raised (i j : PortInterface) : Prop :=
  j = { i with notices := j.notices } ∧ ∀ n, noticeIn n i.notices = true → noticeIn n j.notices = true

theorem Raised.refl (i : PortInterface) : Raised i i := ⟨rfl, fun _ h => h⟩

theorem Raised.trans {i j k : PortInterface} (h : Raised i j) (g : Raised j k) : Raised i k := by
  refine ⟨?_, fun n hn => g.2 n (h.2 n hn)⟩
  rw [g.1, h.1]

/-! ### The five frames, from the widest -/

/-- The settings and the queue of waiting commands are kept, and the ports but for raised notices. -/
structure OnlyStream (s t : State) : Prop where
  settings : t.settings = s.settings
  pending : t.pending = s.pending
  resetHeld : t.resetHeld = s.resetHeld
  ports : ∀ p, Raised (s.ports.get p) (t.ports.get p)

/-- Frame Intake, the filters, the ring and the clock are kept too. -/
structure OnlySettled (s t : State) : Prop extends OnlyStream s t where
  intake : t.intake = s.intake
  filters : t.filters = s.filters
  ring : t.ring = s.ring
  clock : t.clock = s.clock

/-- The Time Mark Unit and what is owed are kept too. -/
structure OnlyUnits (s t : State) : Prop extends OnlySettled s t where
  tmu : t.tmu = s.tmu
  owed : t.owed = s.owed

/-- The Trigger Units are kept too. -/
structure OnlyRefined (s t : State) : Prop extends OnlyUnits s t where
  units : t.units = s.units

/-- The Onset Refiner is kept too: at most the list, the readers and the notices change. -/
structure OnlyRecords (s t : State) : Prop extends OnlyRefined s t where
  refiner : t.refiner = s.refiner

theorem OnlyStream.refl (s : State) : OnlyStream s s := ⟨rfl, rfl, rfl, fun _ => Raised.refl _⟩
theorem OnlySettled.refl (s : State) : OnlySettled s s := ⟨.refl s, rfl, rfl, rfl, rfl⟩
theorem OnlyUnits.refl (s : State) : OnlyUnits s s := ⟨.refl s, rfl, rfl⟩
theorem OnlyRefined.refl (s : State) : OnlyRefined s s := ⟨.refl s, rfl⟩
theorem OnlyRecords.refl (s : State) : OnlyRecords s s := ⟨.refl s, rfl⟩

theorem OnlyStream.trans {s t u : State} (h : OnlyStream s t) (g : OnlyStream t u) : OnlyStream s u :=
  ⟨g.settings.trans h.settings, g.pending.trans h.pending, g.resetHeld.trans h.resetHeld, fun p => (h.ports p).trans (g.ports p)⟩

theorem OnlySettled.trans {s t u : State} (h : OnlySettled s t) (g : OnlySettled t u) : OnlySettled s u :=
  ⟨h.toOnlyStream.trans g.toOnlyStream, g.intake.trans h.intake, g.filters.trans h.filters, g.ring.trans h.ring,
    g.clock.trans h.clock⟩

theorem OnlyUnits.trans {s t u : State} (h : OnlyUnits s t) (g : OnlyUnits t u) : OnlyUnits s u :=
  ⟨h.toOnlySettled.trans g.toOnlySettled, g.tmu.trans h.tmu, g.owed.trans h.owed⟩

theorem OnlyRefined.trans {s t u : State} (h : OnlyRefined s t) (g : OnlyRefined t u) : OnlyRefined s u :=
  ⟨h.toOnlyUnits.trans g.toOnlyUnits, g.units.trans h.units⟩

theorem OnlyRecords.trans {s t u : State} (h : OnlyRecords s t) (g : OnlyRecords t u) : OnlyRecords s u :=
  ⟨h.toOnlyRefined.trans g.toOnlyRefined, g.refiner.trans h.refiner⟩

/-- A fold of steps that each keep a frame keeps it. -/
theorem OnlyRecords.foldl {α : Type} (f : State → α → State) (h : ∀ s x, OnlyRecords s (f s x)) (xs : List α)
    (s : State) : OnlyRecords s (xs.foldl f s) := by
  induction xs generalizing s with
  | nil => exact .refl s
  | cons x xs ih => exact (h s x).trans (ih (f s x))

/-! ### Notices, the list and the readers -/

theorem raise_frame (n : Notice) (p : Port) (s : State) : OnlyRecords s (raise n p s) := by
  refine ⟨⟨⟨⟨⟨rfl, rfl, rfl, fun q => ?_⟩, rfl, rfl, rfl, rfl⟩, rfl, rfl⟩, rfl⟩, rfl⟩
  simp only [raise, State.setPort_ports, Ports.get_set]
  split
  · rename_i h
    subst h
    exact ⟨rfl, fun m hm => by simp [noticeIn_noticeAdd, hm]⟩
  · exact Raised.refl _

@[simp] theorem raise_list (n : Notice) (p : Port) (s : State) : (raise n p s).list = s.list := rfl
@[simp] theorem raise_readers (n : Notice) (p : Port) (s : State) : (raise n p s).readers = s.readers := rfl

theorem raiseBoth_frame (n : Notice) (s : State) : OnlyRecords s (raiseBoth n s) :=
  (raise_frame n .a s).trans (raise_frame n .b _)

@[simp] theorem raiseBoth_list (n : Notice) (s : State) : (raiseBoth n s).list = s.list := rfl
@[simp] theorem raiseBoth_readers (n : Notice) (s : State) : (raiseBoth n s).readers = s.readers := rfl

theorem setReader_frame (p : Port) (r : Reader) (s : State) : OnlyRecords s (s.setReader p r) :=
  ⟨⟨⟨⟨⟨rfl, rfl, rfl, fun _ => Raised.refl _⟩, rfl, rfl, rfl, rfl⟩, rfl, rfl⟩, rfl⟩, rfl⟩

theorem withList_frame (l : PickList) (s : State) : OnlyRecords s { s with list := l } :=
  ⟨⟨⟨⟨⟨rfl, rfl, rfl, fun _ => Raised.refl _⟩, rfl, rfl, rfl, rfl⟩, rfl, rfl⟩, rfl⟩, rfl⟩

theorem setRecords_frame (rs : List Record) (s : State) : OnlyRecords s (s.setRecords rs) := withList_frame _ s

theorem evaluateBacklog_frame (p : Port) (s : State) : OnlyRecords s (evaluateBacklog p s) := by
  unfold evaluateBacklog
  dsimp only
  split
  · exact (setReader_frame p _ s).trans (raise_frame _ _ _)
  · split
    · exact setReader_frame p _ s
    · exact .refl s

@[simp] theorem evaluateBacklog_list (p : Port) (s : State) : (evaluateBacklog p s).list = s.list := by
  unfold evaluateBacklog
  dsimp only
  split
  · rfl
  · split <;> rfl

theorem evaluateBacklogs_frame (s : State) : OnlyRecords s (evaluateBacklogs s) :=
  (evaluateBacklog_frame .a s).trans (evaluateBacklog_frame .b _)

@[simp] theorem evaluateBacklogs_list (s : State) : (evaluateBacklogs s).list = s.list := by
  simp [evaluateBacklogs]

theorem nearFullRise_frame (s : State) : OnlyRecords s (nearFullRise s) := by
  unfold nearFullRise
  split
  · exact (withList_frame _ s).trans (raiseBoth_frame _ _)
  · exact .refl s

theorem nearFullFall_frame (s : State) : OnlyRecords s (nearFullFall s) := by
  unfold nearFullFall
  split
  · exact withList_frame _ s
  · exact .refl s

@[simp] theorem nearFullRise_records (s : State) : (nearFullRise s).list.records = s.list.records := by
  unfold nearFullRise
  split <;> rfl

@[simp] theorem nearFullFall_records (s : State) : (nearFullFall s).list.records = s.list.records := by
  unfold nearFullFall
  split <;> rfl

@[simp] theorem nearFullFall_readers (s : State) : (nearFullFall s).readers = s.readers := by
  unfold nearFullFall
  split <;> rfl

theorem loseRecord_frame (r : Record) (p : Port) (s : State) : OnlyRecords s (loseRecord r p s) := by
  unfold loseRecord
  dsimp only
  split
  · exact (setReader_frame p _ s).trans (raise_frame _ _ _)
  · exact .refl s

@[simp] theorem loseRecord_list (r : Record) (p : Port) (s : State) : (loseRecord r p s).list = s.list := by
  unfold loseRecord
  dsimp only
  split <;> rfl

theorem loseRecordBoth_frame (r : Record) (s : State) : OnlyRecords s (loseRecordBoth r s) :=
  ((loseRecord_frame r .a s).trans (loseRecord_frame r .b _)).trans (evaluateBacklogs_frame _)

@[simp] theorem loseRecordBoth_list (r : Record) (s : State) : (loseRecordBoth r s).list = s.list := by
  simp [loseRecordBoth]

theorem evictIfFull_frame (s : State) : OnlyRecords s (evictIfFull s) := by
  unfold evictIfFull
  split
  · split
    · exact (setRecords_frame _ s).trans (loseRecordBoth_frame _ _)
    · exact .refl s
  · exact .refl s

/-- An eviction takes the head of a full list and nothing of any other (R129). -/
theorem evictIfFull_records (s : State) :
    (evictIfFull s).list.records =
      if Config.listDepth ≤ s.list.records.length then s.list.records.tail else s.list.records := by
  unfold evictIfFull
  split
  · rename_i head more h
    by_cases hf : Config.listDepth ≤ s.list.records.length
    · rw [if_pos hf, if_pos hf, loseRecordBoth_list, h]
      rfl
    · rw [if_neg hf, if_neg hf]
  · rename_i h
    simp [h]

theorem insertRecord_frame (key : Index) (d : Detail) (s : State) : OnlyRecords s (insertRecord key d s) := by
  unfold insertRecord
  dsimp only
  split
  · exact ((evictIfFull_frame s).trans (withList_frame _ _)).trans (nearFullRise_frame _)
  · exact (evictIfFull_frame s).trans (withList_frame _ _)

theorem removalTest_frame (f : Record → Bool) (s : State) : OnlyRecords s (removalTest f s) :=
  (setRecords_frame _ s).trans (nearFullFall_frame _)

/-- A removal test takes the removable records among those tested, and leaves the rest in order (R127). -/
theorem removalTest_records (f : Record → Bool) (s : State) :
    (removalTest f s).list.records = s.list.records.filter fun r => !(f r && s.removable r) := by
  simp [removalTest]

@[simp] theorem removalTest_readers (f : Record → Bool) (s : State) : (removalTest f s).readers = s.readers := by
  simp [removalTest]

theorem retireRecords_frame (n : Index) (s : State) : OnlyRecords s (retireRecords n s) := by
  unfold retireRecords
  dsimp only
  split
  · exact .refl s
  · exact ((setRecords_frame _ s).trans
      (OnlyRecords.foldl _ (fun t r => loseRecordBoth_frame r t) _ _)).trans (nearFullFall_frame _)

theorem takeUp_frame (n : Index) (s : State) : OnlyRecords s (takeUp n s) := withList_frame _ s

theorem releaseRecords_frame (n : Index) (s : State) : OnlyRecords s (releaseRecords n s) := by
  unfold releaseRecords
  dsimp only
  split
  · exact .refl s
  · exact ((setRecords_frame _ s).trans (removalTest_frame _ _)).trans (evaluateBacklogs_frame _)

theorem markAll_frame (p : Port) (m : Bool) (s : State) : OnlyRecords s (markAll p m s) := setRecords_frame _ s

theorem attachReader_frame (p : Port) (m : Bool) (s : State) : OnlyRecords s (attachReader p m s) :=
  (((setReader_frame p _ s).trans (markAll_frame p m _)).trans (removalTest_frame _ _)).trans
    (evaluateBacklog_frame p _)

theorem detachReader_frame (p : Port) (s : State) : OnlyRecords s (detachReader p s) :=
  ((setReader_frame p _ s).trans (markAll_frame p false _)).trans (removalTest_frame _ _)

theorem markSerials_frame (p : Port) (vs : List Serial) (s : State) : OnlyRecords s (markSerials p vs s) :=
  setRecords_frame _ s

theorem deliver_frame (p : Port) (r : Record) (s : State) : OnlyRecords s (deliver p r s) :=
  (setReader_frame p _ s).trans (evaluateBacklog_frame p _)

theorem confirmUpTo_frame (p : Port) (v : Serial) (s : State) : OnlyRecords s (confirmUpTo p v s) :=
  ((setReader_frame p _ s).trans (markSerials_frame p _ _)).trans (removalTest_frame _ _)

/-! ### The Onset Refiner -/

theorem withRefiner_frame (r : Refiner) (s : State) : OnlyRefined s { s with refiner := r } :=
  ⟨⟨⟨⟨rfl, rfl, rfl, fun _ => Raised.refl _⟩, rfl, rfl, rfl, rfl⟩, rfl, rfl⟩, rfl⟩

theorem setLane_frame (l : LaneId) (v : Lane) (s : State) : OnlyRefined s (s.setLane l v) := withRefiner_frame _ s

theorem setQueue_frame (q : List Request) (s : State) : OnlyRefined s (s.setQueue q) := withRefiner_frame _ s

theorem launchLoop_frame (fuel : Nat) (s : State) : OnlyRefined s (launchLoop fuel s) := by
  induction fuel generalizing s with
  | zero => exact .refl s
  | succ fuel ih =>
    unfold launchLoop
    split
    · split
      · exact (withRefiner_frame _ s).trans (ih _)
      · exact .refl s
    · exact .refl s

theorem launchExamination_frame (s : State) : OnlyRefined s (launchExamination s) := by
  unfold launchExamination
  split
  · exact launchLoop_frame _ s
  · exact .refl s

/-- A launch examination leaves the list and the readers alone. -/
theorem launchLoop_list (fuel : Nat) (s : State) :
    (launchLoop fuel s).list = s.list ∧ (launchLoop fuel s).readers = s.readers := by
  induction fuel generalizing s with
  | zero => exact ⟨rfl, rfl⟩
  | succ fuel ih =>
    unfold launchLoop
    split
    · split
      · exact ih _
      · exact ⟨rfl, rfl⟩
    · exact ⟨rfl, rfl⟩

theorem launchExamination_list (s : State) :
    (launchExamination s).list = s.list ∧ (launchExamination s).readers = s.readers := by
  unfold launchExamination
  split
  · exact launchLoop_list _ s
  · exact ⟨rfl, rfl⟩

theorem handCoarse_frame (shed : Bool) (r : Request) (s : State) : OnlyRecords s (handCoarse shed r s) :=
  insertRecord_frame _ _ s

theorem offerRequest_frame (r : Request) (s : State) : OnlyRefined s (offerRequest r s) := by
  unfold offerRequest
  split
  · exact (setQueue_frame _ s).trans (launchExamination_frame _)
  · exact (handCoarse_frame _ r s).toOnlyRefined

theorem truncateBand_frame (b : Band) (t2 : Index) (s : State) : OnlyRefined s (truncateBand b t2 s) :=
  withRefiner_frame _ s

theorem completeLane_frame (l : LaneId) (s : State) : OnlyRefined s (completeLane l s) := by
  unfold completeLane
  split
  · exact ((setLane_frame l _ s).trans (insertRecord_frame _ _ _).toOnlyRefined).trans (launchExamination_frame _)
  all_goals exact .refl s

theorem expireLane_frame (n : Index) (l : LaneId) (s : State) : OnlyRefined s (expireLane n l s) := by
  unfold expireLane
  split
  · split
    · exact (setLane_frame l _ s).trans (handCoarse_frame _ _ _).toOnlyRefined
    · exact .refl s
  · exact .refl s

theorem expireQueue_frame (n : Index) (s : State) : OnlyRefined s (expireQueue n s) :=
  (setQueue_frame _ s).trans (OnlyRecords.foldl _ (fun t r => handCoarse_frame false r t) _ _).toOnlyRefined

theorem expiryStep_frame (n : Index) (s : State) : OnlyRefined s (expiryStep n s) :=
  ((((expireLane_frame n .l0 s).trans (expireLane_frame n .l1 _)).trans (expireLane_frame n .l2 _)).trans
    (expireLane_frame n .l3 _)).trans (expireQueue_frame n _)

theorem scanStartStep_frame (n : Index) (s : State) : OnlyRefined s (scanStartStep n s) := withRefiner_frame _ s

theorem completeOverdueLane_frame (l : LaneId) (s : State) : OnlyRefined s (completeOverdueLane l s) := by
  unfold completeOverdueLane
  split
  · split
    · exact completeLane_frame l s
    · exact .refl s
  all_goals exact .refl s

theorem completeOverdue_frame (s : State) : OnlyRefined s (completeOverdue s) :=
  (((completeOverdueLane_frame .l0 s).trans (completeOverdueLane_frame .l1 _)).trans
    (completeOverdueLane_frame .l2 _)).trans (completeOverdueLane_frame .l3 _)

/-! ### What is owed to a slot write -/

theorem setOwed_frame (o : Owed) (s : State) : OnlySettled s (s.setOwed o) :=
  ⟨⟨rfl, rfl, rfl, fun _ => Raised.refl _⟩, rfl, rfl, rfl, rfl⟩

theorem setTmu_frame (t : TimeMarkUnit) (s : State) : OnlySettled s (s.setTmu t) :=
  ⟨⟨rfl, rfl, rfl, fun _ => Raised.refl _⟩, rfl, rfl, rfl, rfl⟩

theorem setUnit_frame (b : Band) (u : TriggerUnit) (s : State) : OnlyUnits s (s.setUnit b u) :=
  ⟨⟨⟨rfl, rfl, rfl, fun _ => Raised.refl _⟩, rfl, rfl, rfl, rfl⟩, rfl, rfl⟩

theorem refinerExpiry_frame (s : State) : OnlySettled s (refinerExpiry s) := by
  unfold refinerExpiry
  split
  · exact (expiryStep_frame _ s).toOnlySettled.trans (setOwed_frame _ _)
  all_goals exact .refl s

theorem refinerScanStart_frame (s : State) : OnlySettled s (refinerScanStart s) := by
  unfold refinerScanStart
  dsimp only
  split
  · exact ((refinerExpiry_frame s).trans (scanStartStep_frame _ _).toOnlySettled).trans (setOwed_frame _ _)
  all_goals exact refinerExpiry_frame s

theorem refinerFinish_frame (s : State) : OnlySettled s (refinerFinish s) := by
  unfold refinerFinish
  dsimp only
  split
  · exact ((refinerScanStart_frame s).trans (launchExamination_frame _).toOnlySettled).trans (setOwed_frame _ _)
  all_goals exact refinerScanStart_frame s

theorem listRetire_frame (s : State) : OnlySettled s (listRetire s) := by
  unfold listRetire
  split
  · exact ((takeUp_frame _ s).trans (retireRecords_frame _ _)).toOnlySettled.trans (setOwed_frame _ _)
  all_goals exact .refl s

theorem listFinish_frame (s : State) : OnlySettled s (listFinish s) := by
  unfold listFinish
  dsimp only
  split
  · exact ((listRetire_frame s).trans (releaseRecords_frame _ _).toOnlySettled).trans (setOwed_frame _ _)
  all_goals exact listRetire_frame s

theorem changeTiming_frame (t : TimingState) (c : Nat) (s : State) : OnlySettled s (changeTiming t c s) :=
  ((setTmu_frame _ s).trans (insertRecord_frame _ _ _).toOnlySettled).trans (raiseBoth_frame _ _).toOnlySettled

theorem timingFinish_frame (s : State) : OnlySettled s (timingFinish s) := by
  unfold timingFinish
  split
  · split
    · exact (changeTiming_frame _ _ s).trans (setOwed_frame _ _)
    · split
      · exact (changeTiming_frame _ _ s).trans (setOwed_frame _ _)
      · exact setOwed_frame _ s
  · exact .refl s

theorem handClose_frame (b : Band) (u : TriggerUnit) (c : CloseCause) (s : State) :
    OnlyRecords s (handClose b u c s) := insertRecord_frame _ _ s

theorem unitGapRun_frame (b : Band) (s : State) : OnlyUnits s (unitGapRun b s) := by
  unfold unitGapRun
  dsimp only
  split
  · exact .refl s
  · exact (setUnit_frame b _ s).trans (handClose_frame b _ _ _).toOnlyUnits
  all_goals exact setUnit_frame b _ s

theorem unitPrimary_frame (b : Band) (s : State) : OnlyUnits s (unitPrimary b s) := by
  unfold unitPrimary
  dsimp only
  split
  · exact (setUnit_frame b _ s).trans (offerRequest_frame _ _).toOnlyUnits
  · exact setUnit_frame b _ s

theorem unitStacked_frame (b : Band) (s : State) : OnlyUnits s (unitStacked b s) := by
  unfold unitStacked
  dsimp only
  split
  · exact ((setUnit_frame b _ s).trans (truncateBand_frame b _ _).toOnlyUnits).trans
      (offerRequest_frame _ _).toOnlyUnits
  · exact setUnit_frame b _ s

theorem unitEnd_frame (b : Band) (c : CloseCause) (w : Bool) (s : State) : OnlyUnits s (unitEnd b c w s) :=
  (setUnit_frame b _ s).trans (handClose_frame b _ _ _).toOnlyUnits

theorem unitAct_frame (d : UnitDue) (b : Band) (s : State) : OnlyUnits s (unitAct d b s) := by
  unfold unitAct
  dsimp only
  split
  · exact .refl s
  · exact unitGapRun_frame b s
  · exact setUnit_frame b _ s
  · exact setUnit_frame b _ s
  · exact setUnit_frame b _ s
  · exact setUnit_frame b _ s
  · exact setUnit_frame b _ s
  · exact unitPrimary_frame b s
  · exact unitEnd_frame b _ _ s
  · exact unitEnd_frame b _ _ s
  · exact unitEnd_frame b _ _ s
  · exact unitStacked_frame b s
  · exact setUnit_frame b _ s
  · exact setUnit_frame b _ s

theorem unitFinish_frame (b : Band) (s : State) : OnlySettled s (unitFinish b s) := by
  unfold unitFinish
  dsimp only
  split
  · exact (unitAct_frame _ b s).toOnlySettled.trans (setOwed_frame _ _)
  · exact .refl s

theorem unitPlain_frame (b : Band) (s : State) : OnlySettled s (unitPlain b s) := by
  unfold unitPlain
  split
  · exact .refl s
  · exact unitFinish_frame b s

theorem finishBegun_frame (s : State) : OnlySettled s (finishBegun s) := by
  unfold finishBegun
  dsimp only
  have h : OnlySettled s (match s.owed.refiner with
      | .scanStart | .launch => refinerFinish s
      | .expiry | .done => s) := by
    split
    · exact refinerFinish_frame s
    · exact refinerFinish_frame s
    all_goals exact .refl s
  split
  · exact h.trans (listFinish_frame _)
  all_goals exact h

theorem settleOwed_frame (s : State) : OnlySettled s (settleOwed s) :=
  (((((((finishBegun_frame s).trans (unitFinish_frame .b0 _)).trans (unitFinish_frame .b1 _)).trans
    (unitFinish_frame .b2 _)).trans (refinerFinish_frame _)).trans (listFinish_frame _)).trans
    (timingFinish_frame _)).trans (setOwed_frame _ _)

theorem takePlain_frame (s : State) : OnlySettled s (takePlain s) := by
  unfold takePlain
  dsimp only
  have h := ((unitPlain_frame .b0 s).trans (unitPlain_frame .b1 _)).trans (unitPlain_frame .b2 _)
  have h' : OnlySettled s
      (if (unitPlain .b2 (unitPlain .b1 (unitPlain .b0 s))).refinerIdle then
        refinerFinish (unitPlain .b2 (unitPlain .b1 (unitPlain .b0 s)))
      else unitPlain .b2 (unitPlain .b1 (unitPlain .b0 s))) := by
    split
    · exact h.trans (refinerFinish_frame _)
    · exact h
  generalize (if (unitPlain .b2 (unitPlain .b1 (unitPlain .b0 s))).refinerIdle then
        refinerFinish (unitPlain .b2 (unitPlain .b1 (unitPlain .b0 s)))
      else unitPlain .b2 (unitPlain .b1 (unitPlain .b0 s))) = t at h' ⊢
  have h'' : OnlySettled s (if t.listIdle then listFinish t else t) := by
    split
    · exact h'.trans (listFinish_frame _)
    · exact h'
  generalize (if t.listIdle then listFinish t else t) = u at h'' ⊢
  split
  · exact h''
  · exact h''.trans (timingFinish_frame _)

/-! ### Slot writes, frames, timers and time -/

theorem writeCore_frame (k : SlotKind) (r : Reading) (s : State) : OnlyStream s (writeCore k r s) :=
  ⟨rfl, rfl, rfl, fun _ => Raised.refl _⟩

theorem writeSlot_frame (k : SlotKind) (r : Reading) (s : State) : OnlyStream s (writeSlot k r s) :=
  (((settleOwed_frame s).toOnlyStream.trans (completeOverdue_frame _).toOnlyStream).trans
    (writeCore_frame k r _)).trans (takePlain_frame _).toOnlyStream

theorem setIntake_frame (f : FrameIntake) (s : State) : OnlyStream s (s.setIntake f) :=
  ⟨rfl, rfl, rfl, fun _ => Raised.refl _⟩

theorem setNow_frame (t : Nat) (s : State) : OnlyStream s (s.setNow t) := ⟨rfl, rfl, rfl, fun _ => Raised.refl _⟩

theorem writeGap_frame (s : State) : OnlyStream s (writeGap s) := writeSlot_frame _ _ s

theorem writeGood_frame (r : Reading) (s : State) : OnlyStream s (writeGood r s) :=
  (setIntake_frame _ s).trans (writeSlot_frame _ _ _)

theorem writeHeld_frame (s : State) : OnlyStream s (writeHeld s) := by
  unfold writeHeld
  split
  · exact .refl s
  · exact (setIntake_frame _ s).trans (writeGood_frame _ _)
  · exact (setIntake_frame _ s).trans (writeGap_frame _)

theorem writeHeldSlots_frame (n : Nat) (s : State) : OnlyStream s (writeHeldSlots n s) := by
  induction n generalizing s with
  | zero => exact .refl s
  | succ n ih => exact (writeHeld_frame s).trans (ih _)

theorem finishFrame_frame (s : State) : OnlyStream s (finishFrame s) := writeHeldSlots_frame _ s

theorem intakeRecord_frame (t : IntakeType) (s : State) : OnlyRecords s (intakeRecord t s) :=
  (insertRecord_frame _ _ s).trans (raiseBoth_frame _ _)

theorem enterLost_frame (s : State) : OnlyStream s (enterLost s) :=
  ((setIntake_frame _ s).trans (writeGap_frame _)).trans (intakeRecord_frame _ _).toOnlyStream

theorem goodFrame_frame (g : GoodFrame) (s : State) : OnlyStream s (goodFrame g s) := by
  unfold goodFrame
  dsimp only
  split
  · exact (setIntake_frame _ s).trans (writeGood_frame _ _)
  · split
    · exact .refl s
    · exact setIntake_frame _ s
  · exact ((setIntake_frame _ s).trans (writeGood_frame _ _)).trans (intakeRecord_frame _ _).toOnlyStream

theorem damagedFrame_frame (s : State) : OnlyStream s (damagedFrame s) := by
  unfold damagedFrame
  split
  · exact .refl s
  · exact (setIntake_frame _ s).trans (writeSlot_frame _ _ _)
  · exact .refl s

theorem judge_frame (bs : List LinkByte) (s : State) : OnlyStream s (judge bs s) := by
  unfold judge
  dsimp only
  split
  · exact (setIntake_frame _ s).trans (goodFrame_frame _ _)
  · exact (setIntake_frame _ s).trans (damagedFrame_frame _)

theorem judgeComplete_frame (s : State) : OnlyStream s (judgeComplete s) := by
  unfold judgeComplete
  split
  · exact (finishFrame_frame s).trans (judge_frame _ _)
  · exact .refl s

theorem settle_frame (s : State) : OnlyStream s (settle s) :=
  ((judgeComplete_frame s).trans (finishFrame_frame _)).trans (settleOwed_frame _).toOnlyStream

theorem expireTimer_frame (t : Timer) (s : State) : OnlyStream s (expireTimer t s) := by
  cases t
  · exact (setIntake_frame _ s).trans (damagedFrame_frame _)
  · simp only [expireTimer, expireLink]
    split
    · exact enterLost_frame s
    all_goals exact setIntake_frame _ s
  · simp only [expireTimer, expireGapSlot]
    split
    · exact (setIntake_frame _ s).trans (writeGap_frame _)
    all_goals exact setIntake_frame _ s

theorem deliverByte_frame (v : LinkByte) (s : State) : OnlyStream s (deliverByte v s) := by
  unfold deliverByte
  dsimp only
  split
  · split
    · exact (judgeComplete_frame s).trans (setIntake_frame _ _)
    · exact judgeComplete_frame s
  · exact (judgeComplete_frame s).trans (setIntake_frame _ _)

theorem sampleByte_frame (n : Nat) (rx : Receiver) (v : LinkByte) (s : State) :
    OnlyStream s (sampleByte n rx v s) :=
  ((setNow_frame _ s).trans (setIntake_frame _ _)).trans (deliverByte_frame v _)

theorem advanceLoop_frame (fuel target : Nat) (s : State) : OnlyStream s (advanceLoop fuel target s) := by
  induction fuel generalizing s with
  | zero => exact (setNow_frame _ s).trans (setIntake_frame _ _)
  | succ fuel ih =>
    unfold advanceLoop
    dsimp only
    split
    · exact ((sampleByte_frame _ _ _ s).trans (settle_frame _)).trans (ih _)
    · exact ((((setNow_frame _ s).trans (setIntake_frame _ _)).trans (expireTimer_frame _ _)).trans
        (settle_frame _)).trans (ih _)
    · exact (setNow_frame _ s).trans (setIntake_frame _ _)

theorem advanceTo_frame (target : Nat) (s : State) : OnlyStream s (advanceTo target s) := by
  unfold advanceTo
  split
  · exact (settle_frame s).trans (advanceLoop_frame _ _ _)
  · exact .refl s

theorem runTimer_frame (t : Timer) (s : State) : OnlyStream s (runTimer t s) := by
  unfold runTimer
  dsimp only
  split
  · exact settle_frame s
  · split
    · exact ((settle_frame s).trans (advanceTo_frame _ _)).trans (expireTimer_frame t _)
    · exact (settle_frame s).trans (advanceTo_frame _ _)

theorem takeSample_frame (s : State) : OnlyStream s (takeSample s) := by
  unfold takeSample
  dsimp only
  split
  · exact sampleByte_frame _ _ _ s
  · exact (setNow_frame _ s).trans (setIntake_frame _ _)

theorem takeRun_frame (level : Bool) (n : Nat) (s : State) : OnlyStream s (takeRun level n s) := by
  unfold takeRun
  dsimp only
  split
  · exact setIntake_frame _ s
  · exact ((setIntake_frame _ s).trans (advanceTo_frame _ _)).trans (takeSample_frame _)

theorem takeRuns_frame (line : Line) (s : State) :
    OnlyStream s (line.foldl (fun t x => takeRun x.1 x.2 t) s) := by
  induction line generalizing s with
  | nil => exact .refl s
  | cons x line ih => exact (takeRun_frame x.1 x.2 s).trans (ih _)

theorem latchMark_frame (n : Newest) (s : State) : OnlySettled s (latchMark n s) := by
  unfold latchMark
  dsimp only
  split
  · exact (setTmu_frame _ s).trans (setTmu_frame _ _)
  · exact (setTmu_frame _ s).trans (changeTiming_frame _ _ _)

theorem changeDivider_frame (s : State) : OnlyStream s (changeDivider s) := by
  unfold changeDivider
  dsimp only
  split
  · exact (setIntake_frame _ s).trans (enterLost_frame _)
  all_goals exact setIntake_frame _ s

end Sys2Proof.Machine
end

