-- ==== Sys2Proof/Laws/List.lean ====
section
/-! SUPPORT. List order: how two ages compare, and where a record is placed (R121). -/

namespace Sys2Proof.Machine

/-- Of two indices less than 2^31 slots before a third, the one further back is the earlier (R1). -/
theorem earlier_iff_age {a b n : Index} (ha : distance a n < 2147483648) (hb : distance b n < 2147483648) :
    earlier a b = true ↔ distance b n < distance a n := by
  simp only [earlier, distance, Bool.and_eq_true, decide_eq_true_eq] at *
  bv_omega

/-- Of two such indices neither of which is the earlier, both are one. -/
theorem eq_of_not_earlier {a b n : Index} (ha : distance a n < 2147483648) (hb : distance b n < 2147483648)
    (h : earlier a b = false) (g : earlier b a = false) : a = b := by
  have h' := mt (earlier_iff_age ha hb).2 (by simp [h])
  have g' := mt (earlier_iff_age hb ha).2 (by simp [g])
  simp only [distance] at *
  bv_omega

/-- A placed record splits the list: nothing before it has a later key, and the first after it has one. -/
theorem placeRecord_split (new : Record) (rs : List Record) :
    ∃ before after, rs = before ++ after ∧ placeRecord new rs = before ++ new :: after
      ∧ (∀ x ∈ before, earlier new.key x.key = false) ∧ ∀ x, after.head? = some x → earlier new.key x.key = true := by
  induction rs with
  | nil => exact ⟨[], [], rfl, rfl, by simp, by simp⟩
  | cons r more ih =>
    cases hr : earlier new.key r.key with
    | true => exact ⟨[], r :: more, rfl, by simp [placeRecord, hr], by simp, by simp [hr]⟩
    | false =>
      obtain ⟨before, after, rfl, h, hb, ha⟩ := ih
      exact ⟨r :: before, after, rfl, by simp [placeRecord, hr, h], by simpa [hr] using hb, ha⟩

end Sys2Proof.Machine
end

