-- ==== Sys2Proof/Laws/Ring.lean ====
section
/-! SUPPORT. The laws of the ring's cells: reading after writing, and the canonical form every write keeps. -/

namespace Sys2Proof.Machine

/-- The canonical form of the ring's cells: the written positions stand in strictly rising order (R35). -/
def Cells.wf (cells : List (Nat × Slot)) : Prop := (cells.map Prod.fst).Pairwise (· < ·)

theorem Cells.wf_reset : Cells.wf State.reset.ring.cells := List.Pairwise.nil

theorem writeCell_mem {pos : Nat} {v : Slot} {cells : List (Nat × Slot)} {q : Nat}
    (h : q ∈ (writeCell pos v cells).map Prod.fst) : q = pos ∨ q ∈ cells.map Prod.fst := by
  induction cells with
  | nil => simpa [writeCell] using h
  | cons c more ih =>
    obtain ⟨p, w⟩ := c
    simp only [writeCell] at h
    split at h
    · simpa using h
    · split at h
      · simp only [List.map_cons, List.mem_cons] at h ⊢
        exact h.imp id .inr
      · simp only [List.map_cons, List.mem_cons] at h ⊢
        rcases h with h | h
        · exact .inr (.inl h)
        · exact (ih h).imp id .inr

/-- A write keeps the canonical form. -/
theorem writeCell_wf {pos : Nat} {v : Slot} {cells : List (Nat × Slot)} (h : Cells.wf cells) :
    Cells.wf (writeCell pos v cells) := by
  induction cells with
  | nil => simp [writeCell, Cells.wf]
  | cons c more ih =>
    obtain ⟨q, w⟩ := c
    simp only [Cells.wf, List.map_cons, List.pairwise_cons] at h
    simp only [writeCell]
    split
    · rename_i hlt
      simp only [Cells.wf, List.map_cons, List.pairwise_cons, List.mem_cons]
      exact ⟨fun a ha => ha.elim (fun e => e ▸ hlt) fun e => lt_trans hlt (h.1 a e), h.1, h.2⟩
    · split
      · rename_i hle heq
        subst heq
        simp only [Cells.wf, List.map_cons, List.pairwise_cons]
        exact h
      · rename_i hle hne
        simp only [Cells.wf, List.map_cons, List.pairwise_cons]
        refine ⟨fun a ha => ?_, ih h.2⟩
        rcases writeCell_mem ha with e | e
        · omega
        · exact h.1 a e

/-- Reading the position just written gives the slot written (R35, R37). -/
theorem readCell_writeCell_same (pos : Nat) (v : Slot) (cells : List (Nat × Slot)) :
    readCell pos (writeCell pos v cells) = some v := by
  induction cells with
  | nil => simp [writeCell, readCell]
  | cons c more ih =>
    obtain ⟨q, w⟩ := c
    simp only [writeCell]
    split
    · simp [readCell]
    · split
      · simp [readCell]
      · rename_i hlt hne
        have : (q == pos) = false := by simpa using fun e => hne e.symm
        simpa [readCell, List.find?_cons, this] using ih

/-- A write leaves what every other position reads as (R35). -/
theorem readCell_writeCell_other {pos q : Nat} (v : Slot) (cells : List (Nat × Slot)) (h : q ≠ pos) :
    readCell q (writeCell pos v cells) = readCell q cells := by
  have hpq : (pos == q) = false := by simpa using fun e => h e.symm
  induction cells with
  | nil => simp [writeCell, readCell, hpq]
  | cons c more ih =>
    obtain ⟨p, w⟩ := c
    simp only [writeCell]
    split
    · simp [readCell, List.find?_cons, hpq]
    · split
      · rename_i heq
        subst heq
        simp [readCell, hpq]
      · by_cases hq : (p == q) = true
        · simp [readCell, hq]
        · simp only [readCell, List.find?_cons, hq] at ih ⊢
          exact ih

/-- The index written reads back as the slot written (R35, R37). -/
theorem Ring.read_write_same (g : Ring) (i : Index) (accepted : Nat) (v : Slot) :
    ((g.write i accepted v).read i).slot = some v := by
  have h : (g.write i accepted v).holds i = true := by
    simp [Ring.holds, Ring.write, distance, Config.ringDepth]
  simp only [Ring.read, h, if_true]
  exact readCell_writeCell_same _ _ _

end Sys2Proof.Machine
end

