-- ==== Sys2Proof/Laws/Settle.lean ====
section
/-! SUPPORT. Settling: a state that owes nothing is left as it is, and what settling leaves owes nothing. -/

namespace Sys2Proof.Machine

theorem finishBegun_of_nothing {s : State} (hr : s.owed.refiner = .expiry ∨ s.owed.refiner = .done)
    (hl : s.owed.list = .retire ∨ s.owed.list = .done) : finishBegun s = s := by
  unfold finishBegun
  rcases hr with hr | hr <;> rcases hl with hl | hl <;> simp [hr, hl]

theorem unitFinish_of_none {b : Band} {s : State} (h : s.owed.units.get b = false) : unitFinish b s = s := by
  simp [unitFinish, h]

theorem refinerFinish_of_done {s : State} (h : s.owed.refiner = .done) : refinerFinish s = s := by
  have h1 : refinerExpiry s = s := by simp [refinerExpiry, h]
  have h2 : refinerScanStart s = s := by simp [refinerScanStart, h1, h]
  simp [refinerFinish, h2, h]

theorem listFinish_of_done {s : State} (h : s.owed.list = .done) : listFinish s = s := by
  have h1 : listRetire s = s := by simp [listRetire, h]
  simp [listFinish, h1, h]

theorem timingFinish_of_none {s : State} (h : s.owed.timing = false) : timingFinish s = s := by
  simp [timingFinish, h]

/-- The watch acts: the change to HOLDOVER (R27). -/
theorem timingFinish_of_watch {s : State} (h : s.owed.timing = true) (hw : s.watchDue = true) :
    timingFinish s = (changeTiming .holdover 0 s).setOwed { s.owed with timing := false } := by
  simp [timingFinish, h, hw]

/-- The holdover limit acts: the change to FREE (R28). -/
theorem timingFinish_of_limit {s : State} (h : s.owed.timing = true) (hw : s.watchDue = false)
    (hl : s.holdoverDue = true) :
    timingFinish s = (changeTiming .free s.tmu.holdover s).setOwed { s.owed with timing := false } := by
  simp [timingFinish, h, hw, hl]

/-- Once the Time Mark Unit's handling is taken, it owes nothing and nothing else is owed otherwise. -/
theorem timingFinish_owed (s : State) : (timingFinish s).owed = { s.owed with timing := false } := by
  unfold timingFinish
  split
  · split
    · rfl
    · split <;> rfl
  · rename_i h
    cases hs : s.owed with
    | mk u g r l x => cases x <;> simp_all

/-- A second handling changes nothing. -/
theorem timingFinish_timingFinish (s : State) : timingFinish (timingFinish s) = timingFinish s :=
  timingFinish_of_none (by rw [timingFinish_owed])

theorem setOwed_self {s : State} {o : Owed} (h : s.owed = o) : s.setOwed o = s := by
  subst h
  rfl

/-- A state that owes nothing is settled already. -/
theorem settleOwed_of_nothing {s : State} (h : s.owed = Owed.nothing) : settleOwed s = s := by
  have h0 : finishBegun s = s := finishBegun_of_nothing (by simp [h, Owed.nothing]) (by simp [h, Owed.nothing])
  have hu : ∀ b, unitFinish b s = s := fun b => unitFinish_of_none (by simp [h, Owed.nothing])
  unfold settleOwed
  rw [h0, hu, hu, hu, refinerFinish_of_done (by simp [h, Owed.nothing]),
    listFinish_of_done (by simp [h, Owed.nothing]), timingFinish_of_none (by simp [h, Owed.nothing])]
  exact setOwed_self h

@[simp] theorem settleOwed_owed (s : State) : (settleOwed s).owed = Owed.nothing := rfl

theorem settleOwed_intake (s : State) : (settleOwed s).intake = s.intake := (settleOwed_frame s).intake

theorem judgeComplete_of_none {s : State} (h : s.intake.assembler.complete = none) : judgeComplete s = s := by
  simp [judgeComplete, h]

theorem finishFrame_of_none {s : State} (h : s.intake.inHand = none) : finishFrame s = s := by
  simp [finishFrame, State.slotsInHand, h, writeHeldSlots]

theorem settle_of_settled {s : State} (h : s.Settled) : settle s = s := by
  unfold settle
  rw [judgeComplete_of_none h.1, finishFrame_of_none h.2.1, settleOwed_of_nothing h.2.2]

theorem finishBegun_of_nothingBegun {s : State} (h : s.NothingBegun) : finishBegun s = s :=
  finishBegun_of_nothing h.1 h.2

theorem State.Settled.nothingBegun {s : State} (h : s.Settled) : s.NothingBegun :=
  ⟨by simp [h.2.2, Owed.nothing], by simp [h.2.2, Owed.nothing]⟩

/-! ### The assembler through a slot write -/

@[simp] theorem writeSlot_assembler (k : SlotKind) (r : Reading) (s : State) :
    (writeSlot k r s).intake.assembler = s.intake.assembler := by
  unfold writeSlot
  rw [(takePlain_frame _).intake]
  show (completeOverdue (settleOwed s)).intake.assembler = _
  rw [(completeOverdue_frame _).intake, settleOwed_intake]

@[simp] theorem writeGap_assembler (s : State) : (writeGap s).intake.assembler = s.intake.assembler :=
  writeSlot_assembler _ _ s

@[simp] theorem writeGood_assembler (r : Reading) (s : State) :
    (writeGood r s).intake.assembler = s.intake.assembler := by
  unfold writeGood
  rw [writeSlot_assembler]
  rfl

@[simp] theorem intakeRecord_assembler (t : IntakeType) (s : State) :
    (intakeRecord t s).intake.assembler = s.intake.assembler := by
  rw [(intakeRecord_frame t s).intake]

theorem goodFrame_assembler (g : GoodFrame) (s : State) :
    (goodFrame g s).intake.assembler = s.intake.assembler := by
  unfold goodFrame
  dsimp only
  split
  · simp [FrameIntake.follow]
  · split <;> simp [FrameIntake.follow]
  · simp [FrameIntake.follow]

theorem damagedFrame_assembler (s : State) : (damagedFrame s).intake.assembler = s.intake.assembler := by
  unfold damagedFrame
  split <;> simp

/-- A judged frame leaves the assembler hunting (R7). -/
theorem judge_assembler (bs : List LinkByte) (s : State) : (judge bs s).intake.assembler = .hunting := by
  unfold judge
  dsimp only
  split
  · simp [goodFrame_assembler]
  · simp [damagedFrame_assembler]

theorem judgeComplete_complete (s : State) : (judgeComplete s).intake.assembler.complete = none := by
  unfold judgeComplete
  split
  · rw [judge_assembler]
    rfl
  · assumption

@[simp] theorem writeSlot_inHand (k : SlotKind) (r : Reading) (s : State) :
    (writeSlot k r s).intake.inHand = s.intake.inHand := by
  unfold writeSlot
  rw [(takePlain_frame _).intake]
  show (completeOverdue (settleOwed s)).intake.inHand = _
  rw [(completeOverdue_frame _).intake, settleOwed_intake]

theorem writeHeld_assembler (s : State) : (writeHeld s).intake.assembler = s.intake.assembler := by
  unfold writeHeld
  split <;> simp

/-- A slot write of the frame in hand leaves one slot fewer. -/
theorem writeHeld_slotsInHand (s : State) : (writeHeld s).slotsInHand = s.slotsInHand - 1 := by
  unfold writeHeld
  split
  all_goals
    rename_i h
    simp [State.slotsInHand, h, writeGood, writeGap]

theorem writeHeldSlots_assembler (n : Nat) (s : State) :
    (writeHeldSlots n s).intake.assembler = s.intake.assembler := by
  induction n generalizing s with
  | zero => rfl
  | succ n ih => exact (ih _).trans (writeHeld_assembler s)

theorem writeHeldSlots_slotsInHand (n : Nat) (s : State) :
    (writeHeldSlots n s).slotsInHand = s.slotsInHand - n := by
  induction n generalizing s with
  | zero => rfl
  | succ n ih =>
    rw [show writeHeldSlots (n + 1) s = writeHeldSlots n (writeHeld s) from rfl, ih, writeHeld_slotsInHand]
    omega

theorem inHand_of_slotsInHand {s : State} (h : s.slotsInHand = 0) : s.intake.inHand = none := by
  unfold State.slotsInHand at h
  split at h
  · assumption
  · omega

/-- A frame written out leaves nothing in hand. -/
theorem finishFrame_inHand (s : State) : (finishFrame s).intake.inHand = none :=
  inHand_of_slotsInHand (by simp [finishFrame, writeHeldSlots_slotsInHand])

/-- What settling leaves is settled. -/
theorem settle_settled (s : State) : (settle s).Settled := by
  unfold settle
  refine ⟨?_, ?_, rfl⟩
  · rw [settleOwed_intake]
    exact (congrArg Assembler.complete (writeHeldSlots_assembler _ _)).trans (judgeComplete_complete s)
  · rw [settleOwed_intake]
    exact finishFrame_inHand _

@[simp] theorem settle_settle (s : State) : settle (settle s) = settle s := settle_of_settled (settle_settled s)

@[simp] theorem settleOwed_settleOwed (s : State) : settleOwed (settleOwed s) = settleOwed s :=
  settleOwed_of_nothing rfl

/-! ### The Time Mark Unit while the others are settled -/

/-- The handlings of the units, the refiner and the list keep the Time Mark Unit and leave its own handling owed. -/
def KeepsTmu (s t : State) : Prop := t.tmu = s.tmu ∧ t.owed.timing = s.owed.timing

theorem KeepsTmu.refl (s : State) : KeepsTmu s s := ⟨rfl, rfl⟩

theorem KeepsTmu.trans {s t u : State} (h : KeepsTmu s t) (g : KeepsTmu t u) : KeepsTmu s u :=
  ⟨g.1.trans h.1, g.2.trans h.2⟩

theorem OnlyUnits.keepsTmu {s t : State} (h : OnlyUnits s t) : KeepsTmu s t := ⟨h.tmu, by rw [h.owed]⟩

theorem unitFinish_keepsTmu (b : Band) (s : State) : KeepsTmu s (unitFinish b s) := by
  unfold unitFinish
  dsimp only
  split
  · exact (unitAct_frame _ b s).keepsTmu.trans ⟨rfl, rfl⟩
  · exact .refl s

theorem refinerExpiry_keepsTmu (s : State) : KeepsTmu s (refinerExpiry s) := by
  unfold refinerExpiry
  split
  · exact ⟨(expiryStep_frame _ s).tmu, rfl⟩
  all_goals exact .refl s

theorem refinerScanStart_keepsTmu (s : State) : KeepsTmu s (refinerScanStart s) := by
  unfold refinerScanStart
  dsimp only
  split
  · exact (refinerExpiry_keepsTmu s).trans ⟨rfl, rfl⟩
  all_goals exact refinerExpiry_keepsTmu s

theorem refinerFinish_keepsTmu (s : State) : KeepsTmu s (refinerFinish s) := by
  unfold refinerFinish
  dsimp only
  split
  · exact (refinerScanStart_keepsTmu s).trans ⟨(launchExamination_frame _).tmu, rfl⟩
  all_goals exact refinerScanStart_keepsTmu s

theorem listRetire_keepsTmu (s : State) : KeepsTmu s (listRetire s) := by
  unfold listRetire
  split
  · exact ⟨((takeUp_frame _ s).trans (retireRecords_frame _ _)).tmu, rfl⟩
  all_goals exact .refl s

theorem listFinish_keepsTmu (s : State) : KeepsTmu s (listFinish s) := by
  unfold listFinish
  dsimp only
  split
  · exact (listRetire_keepsTmu s).trans ⟨(releaseRecords_frame _ _).tmu, rfl⟩
  all_goals exact listRetire_keepsTmu s

theorem finishBegun_keepsTmu (s : State) : KeepsTmu s (finishBegun s) := by
  unfold finishBegun
  dsimp only
  have h : KeepsTmu s (match s.owed.refiner with
      | .scanStart | .launch => refinerFinish s
      | .expiry | .done => s) := by
    split
    · exact refinerFinish_keepsTmu s
    · exact refinerFinish_keepsTmu s
    all_goals exact .refl s
  split
  · exact h.trans (listFinish_keepsTmu _)
  all_goals exact h

/-- Settling reaches the Time Mark Unit last: on a state that has its values, only its own handling is taken. -/
theorem settleOwed_timing (s : State) :
    ∃ t, KeepsTmu s t ∧ OnlySettled s t ∧ settleOwed s = (timingFinish t).setOwed Owed.nothing :=
  ⟨_, (((((finishBegun_keepsTmu s).trans (unitFinish_keepsTmu .b0 _)).trans (unitFinish_keepsTmu .b1 _)).trans
      (unitFinish_keepsTmu .b2 _)).trans (refinerFinish_keepsTmu _)).trans (listFinish_keepsTmu _),
    (((((finishBegun_frame s).trans (unitFinish_frame .b0 _)).trans (unitFinish_frame .b1 _)).trans
      (unitFinish_frame .b2 _)).trans (refinerFinish_frame _)).trans (listFinish_frame _), rfl⟩

/-- A mark at the present instant comes after everything its slot write owes (R31). -/
theorem execTimeMark_now (s : State) :
    execTimeMark 0 s = .next (match s.ring.newest with
      | none => settleOwed s
      | some n => latchMark n (settleOwed s)) := by
  unfold execTimeMark advanceTo
  rw [if_neg (by simp)]
  dsimp only
  rw [(settleOwed_frame s).ring]
  cases s.ring.newest <;> rfl

/-! ### A begun handling -/

theorem refinerFinish_refiner (s : State) : (refinerFinish s).owed.refiner = .done := by
  unfold refinerFinish
  dsimp only
  have h : (refinerScanStart s).owed.refiner = .launch ∨ (refinerScanStart s).owed.refiner = .done := by
    unfold refinerScanStart
    dsimp only
    have h : (refinerExpiry s).owed.refiner ≠ .expiry := by
      unfold refinerExpiry
      split <;> simp [*]
    split <;> simp_all
  split <;> simp_all

theorem listFinish_list (s : State) : (listFinish s).owed.list = .done := by
  unfold listFinish
  dsimp only
  have h : (listRetire s).owed.list ≠ .retire := by
    unfold listRetire
    split <;> simp [*]
  split <;> simp_all

theorem listFinish_refiner (s : State) : (listFinish s).owed.refiner = s.owed.refiner := by
  have h : (listRetire s).owed.refiner = s.owed.refiner := by
    unfold listRetire
    split <;> rfl
  unfold listFinish
  dsimp only
  split
  · exact h
  all_goals exact h

/-- Once a begun handling is finished none is half taken. -/
theorem finishBegun_nothingBegun (s : State) : (finishBegun s).NothingBegun := by
  unfold finishBegun State.NothingBegun
  dsimp only
  split <;> split <;> simp_all [listFinish_list, listFinish_refiner, refinerFinish_refiner]

@[simp] theorem finishBegun_finishBegun (s : State) : finishBegun (finishBegun s) = finishBegun s :=
  finishBegun_of_nothingBegun (finishBegun_nothingBegun s)

/-! ### Transactions -/

/-- A transaction at an open port: its body runs on the state with the old response shifted out (R172, R173). -/
theorem transact_of_open {s : State} (h : s.PortsOpen) (p : Port) (clocks : Nat)
    (body : State → State × Response) :
    transact p clocks body s =
      respond p (body (openTransaction p clocks s)).2 (body (openTransaction p clocks s)).1 := by
  unfold transact
  rw [finishBegun_of_nothingBegun h.2, h.1]
  rfl

/-- A transaction finishes a begun handling first, so it does the same once that is finished. -/
theorem transact_finishBegun (p : Port) (clocks : Nat) (body : State → State × Response) {s : State}
    (h : s.resetHeld = false) : transact p clocks body (finishBegun s) = transact p clocks body s := by
  simp [transact, h, (finishBegun_frame s).resetHeld]

/-- While RESET is asserted a transaction only shifts out 0 (R188). -/
theorem transact_of_resetHeld {s : State} (h : s.resetHeld = true) (p : Port) (clocks : Nat)
    (body : State → State × Response) : transact p clocks body s = disregard p clocks false s := by
  simp [transact, h]

/-- A request that changes nothing but the exchange (R172, R173). -/
theorem transact_answered {s : State} (h : s.PortsOpen) (p : Port) (clocks : Nat) (r : Response) :
    transact p clocks (fun t => (t, r)) s = s.answered p clocks r := by
  rw [transact_of_open h]
  simp [respond, openTransaction, State.answered, State.setPort]

/-! ### Time -/

theorem soonerTimer_mem {a b : Option (Timer × Nat)} {x : Timer × Nat} (h : soonerTimer a b = some x) :
    a = some x ∨ b = some x := by
  unfold soonerTimer at h
  split at h
  · exact .inr h
  · exact .inl h
  · split at h
    · exact .inr h
    · exact .inl h

/-- The next timer is one of the three, at its instant of expiry. -/
theorem State.nextTimer_timer {s : State} {k : Timer} {d : Nat} (h : s.nextTimer = some (k, d)) :
    s.timer k = some d := by
  unfold State.nextTimer at h
  rcases soonerTimer_mem h with h | h
  · rcases soonerTimer_mem h with h | h
    all_goals
      simp only [Option.map_eq_some_iff, Prod.mk.injEq] at h
      obtain ⟨e, he, rfl, rfl⟩ := h
      exact he
  · simp only [Option.map_eq_some_iff, Prod.mk.injEq] at h
    obtain ⟨e, he, rfl, rfl⟩ := h
    exact he

/-- Time passes quietly up to an instant: the clock moves and the line is sampled, and nothing else changes. -/
theorem advanceTo_of_quiet {s : State} {target : Nat} (hs : s.Settled) (hn : s.clock.now < target)
    (h : s.QuietUntil target) : advanceTo target s = s.waited target := by
  unfold advanceTo
  rw [if_pos hn, settle_of_settled hs]
  unfold advanceLoop
  have hnone : (s.nextTimer.filter fun x => decide (x.2 < target)) = none := by
    rw [Option.filter_eq_none_iff]
    intro x hx
    obtain ⟨t, d⟩ := x
    simpa using h.1 t d (State.nextTimer_timer hx)
  dsimp only
  rw [hnone]
  dsimp only [Option.map_none, Option.getD_none]
  rw [h.2]
  dsimp only
  rw [Nat.max_eq_right (Nat.le_of_lt hn)]
  rfl

/-- No sample falls before an instant that is not later than the next sample's. -/
theorem State.samplesBefore_of_le {s : State} {t : Nat} (h : t ≤ s.intake.nextSample) : s.samplesBefore t = 0 := by
  unfold State.samplesBefore State.samplePeriod
  rw [Nat.sub_eq_zero_of_le h, Nat.zero_add]
  exact Nat.div_eq_of_lt (Nat.lt_succ_self _)

/-- Up to the present instant nothing passes. -/
theorem State.waited_now {s : State} (h : s.clock.now ≤ s.intake.nextSample) : s.waited s.clock.now = s := by
  unfold State.waited
  rw [State.samplesBefore_of_le h]
  simp [State.afterSamples, rxRun, State.setNow, State.setIntake]

end Sys2Proof.Machine
end

