-- ==== Sys2Proof/Tests/Slice0.lean ====
section
/-! SUPPORT. Tests: ill-formed terms are refused, transactions decode as the spec writes them, worked examples of the
spec come out, one or two small steps of every command, and for each statement with hypotheses a witness of them. -/

namespace Sys2Proof.Tests

set_option Elab.async false

open Sys2Proof.Machine

/-! ### Helpers -/

/-- The state after a command, or the state itself where the command is refused. -/
def after (c : Instr) (s : State) : State :=
  match exec c s with
  | .next t => t
  | .fault _ => s
  | .refused _ => s

def quietReading : Reading :=
  { z := 0, n := 0, e := 0, clipZ := false, clipN := false, clipE := false, cal := false }

def quietSlot (cal : Bool) : Slot :=
  { reading := { quietReading with cal := cal }, damaged := false, gap := false, esat := false
    energy := Bands.all 0, vertical := Bands.all 0 }

/-- The reset state with one slot of an index in the ring, with or without CAL. -/
def oneSlot (i : Index) (cal : Bool) : State :=
  { State.reset with
    intake := { FrameIntake.reset with nextIndex := i + 1 }
    ring := { Ring.reset with
      cells := [(i.toNat % 8192, quietSlot cal)], newest := some { index := i, accepted := 0 }, written := 1 } }

def owesUnits (gapRun : Bool) : Owed := { Owed.nothing with units := Bands.all true, gapRun := gapRun }

/-- One slot in the ring, band 0 as given, and every unit's handling of that slot still owed. -/
def unitState (u : TriggerUnit) (cal gapRun : Bool) : State :=
  { oneSlot 1000 cal with
    units := { State.reset.units with b0 := u }
    settings := { Settings.reset with core := .running }
    owed := owesUnits gapRun }

def unit0 : TriggerUnit := TriggerUnit.reset .b0

def pendingUnit (sta : Nat) : TriggerUnit :=
  { unit0 with
    state := .pending, sta := sta, lta := 16384, frozenLta := some 16384, tOn := some 992, confirmCount := 8 }

def declaredUnit (sta : Nat) (tOn : Index) : TriggerUnit :=
  { unit0 with
    state := .declared, episode := 0, sta := sta, lta := 16384, frozenLta := some 16384, staMin := 16384
    tOn := some tOn }

def stackedUnit (sta : Nat) : TriggerUnit :=
  { declaredUnit sta 900 with tOn2 := some 992, heldMin := some 16384, stackCount := 8 }

def request (deadline windowEnd : Index) : Request :=
  { band := .b0, episode := 0, stack := 0, trigger := 992, ws := windowEnd - 31, we := windowEnd
    deadline := deadline, fields := (Profile.default .b0).refineFields, ratio := 48, generation := 0, timing := .none
    windowEnd := windowEnd, truncated := false }

def windowOf (n : Nat) (e : Energy) : List WindowSlot :=
  List.replicate n { energy := e, vertical := e, gap := false, damaged := false, clipped := false }

def aClose : Detail := .close { band := .b1, episode := 0, duration := 500, stacked := 0, cause := .fell }

def recordOf (serial : Serial) (key : Index) (released : Bool) : Record :=
  { serial := serial, key := key, detail := aClose, released := released, marks := Ports.all false }

/-- One slot of index 1000 and a list of `n` records, keys 100 on, released; nearly full as the count says. -/
def listState (n : Nat) (released : Bool) : State :=
  { oneSlot 1000 false with
    list := { PickList.reset with
      records := (List.range n).map fun k => recordOf (BitVec.ofNat 16 k) (BitVec.ofNat 32 (100 + k)) released
      nextSerial := BitVec.ofNat 16 n
      nearFullArmed := decide (n < 48) } }

/-- Port A's reader attached over a list, with a delivered sequence. -/
def readerState (n : Nat) (delivered : List Serial) : State :=
  { listState n true with
    readers := { Ports.all Reader.reset with a := { Reader.reset with attached := true, delivered := delivered } } }

def linkBytes (bs : List Byte) : List LinkByte := bs.map fun v => { value := v, fault := false }

/-- A link state with the twelve bytes of a frame of counter 0 and three zero samples just collected. -/
def frameState (link : LinkState) (expected : Byte) (bytes : List LinkByte) : State :=
  { oneSlot 41 false with
    intake := { FrameIntake.reset with
      link := link
      nextIndex := 42
      assembler := .assembling bytes 200000
      expected := if link = .running then some expected else none
      linkTimer := if link = .running then some 300000 else none
      gapSlotTimer := if link = .lost then some 300000 else none
      lastGood := if link = .searching then none else some quietReading } }

def goodBytes : List LinkByte := linkBytes (List.replicate 12 0)

def badBytes : List LinkByte := linkBytes (List.replicate 11 0 ++ [0x01])

/-- A state that owes nothing but a timer's expiry at 5000. -/
def timerState (link : LinkState) (t : Timer) : State :=
  { oneSlot 41 false with
    intake := { FrameIntake.reset with
      link := link
      nextIndex := 42
      assembler := if t = .assembly then .assembling [] 5000 else .hunting
      expected := if link = .running then some 0 else none
      linkTimer := if t = .link then some 5000 else none
      gapSlotTimer := if t = .gapSlot then some 5000 else none
      lastGood := some quietReading } }

/-- The timing state with two entries of the anchor table, the latest at an index. -/
def markedState (timing : TimingState) (latest : Index) (regular : Bool) (count : Nat) : State :=
  { oneSlot 1000 false with
    tmu :=
      { timing := timing, latest := some { index := latest, phase := 0, regular := regular }
        previous := some { index := latest - 200, phase := 0, regular := regular }, holdover := count } }

def laneState (lanes : Lanes Lane) (queue : List Request) (history : List Index) : State :=
  { oneSlot 1000 false with
    refiner := { queue := queue, lanes := lanes, history := history }
    settings := { Settings.reset with core := .running } }

def fetchOf (count returned : Nat) (buffered : Nat) : Fetch :=
  { start := 1000, count := count, mask := Bands.all true, returned := returned
    buffer := (List.range buffered).map fun k => { index := 1000 + BitVec.ofNat 32 k, slot := none } }

def engineState (a b : FetchEngine) (lane fetch : Nat) (last : Option Port) : State :=
  { oneSlot 1000 false with
    ring := { (oneSlot 1000 false).ring with laneReads := lane, fetchReads := fetch, lastServed := last }
    ports :=
      { a := { PortInterface.reset with engine := a }, b := { PortInterface.reset with engine := b } }
    clock := { Clock.reset with fillOrder := [.b, .a] } }

/-- An idle line completes no byte, so a state without running timers is quiet. -/
theorem quiet_of_idle_line (s : State) (t : Nat) (h : s.intake.receiver = { last := true, busy := none })
    (hl : s.level = true) (ht : ∀ k d, s.timer k = some d → t ≤ d) : s.QuietUntil t := by
  refine ⟨ht, ?_⟩
  rw [h, hl]
  cases s.samplesBefore t <;> simp [rxRun, rxQuiet]

theorem quiet_without_timers (s : State) (t : Nat) (h : s.intake.receiver = { last := true, busy := none })
    (hl : s.level = true) (ha : s.timer .assembly = none) (hk : s.timer .link = none)
    (hg : s.timer .gapSlot = none) : s.QuietUntil t :=
  quiet_of_idle_line s t h hl fun k d hd => by cases k <;> simp_all

/-! ### WellFormed: ill-formed terms -/

theorem test_unknown_request_of_a_named_code_is_ill_formed :
    (Instr.unknownRequest .a 0x12 []).wellFormed = false
    ∧ exec (.unknownRequest .a 0x12 []) State.reset = .refused (.illFormed "UNKNOWN_REQUEST") := ⟨by decide, rfl⟩

theorem test_attach_of_a_named_mode_is_ill_formed :
    (Instr.attachUnknownMode .a (bitsOfByte 0x02)).wellFormed = false
    ∧ exec (.attachUnknownMode .a (bitsOfByte 0x02)) State.reset =
        .refused (.illFormed "ATTACH_UNKNOWN_MODE") := ⟨by decide, rfl⟩

theorem test_empty_transaction_of_a_whole_byte_is_ill_formed :
    (Instr.emptyTransaction .b (bitsOfByte 0x55)).wellFormed = false
    ∧ exec (.emptyTransaction .b (bitsOfByte 0x55)) State.reset =
        .refused (.illFormed "EMPTY_TRANSACTION") := ⟨by decide, rfl⟩

/-! ### Transactions written out from R190 -/

theorem test_transactions_decode :
    decodeTransaction .a [false, false, false, true, false, false, true, false] = .take .a []
    ∧ decodeTransaction .b
        ([false, false, false, true, false, false, false, false] ++ [false, false, false, false, false, false, true,
          false]) = .attachFromNow .b []
    ∧ decodeTransaction .a
        ([false, false, true, true, false, true, false, false] ++ bitsOfBytes [0x08, 0xFF]) =
        .setPort .a (bitsOfBytes [0x08, 0xFF])
    ∧ decodeTransaction .a (bitsOfByte 0x60) = .unknownRequest .a 0x60 []
    ∧ decodeTransaction .a [true, false, true] = .emptyTransaction .a [true, false, true] := by decide

theorem test_table_words_spell_no_command : ∀ nbits w : Nat, decodeTableWord nbits w = none := fun _ _ => rfl

/-! ### Worked examples of the spec -/

/-- R3: lg(1000) = 2548. -/
theorem test_lg_1000 : lg 1000 = 2548 ∧ lg 0 = 0 ∧ lg 1 = 0 ∧ lg 4294967295 = 8191 := by decide +kernel

/-- R9: the message 0x01 gives 0x07. -/
theorem test_crc_of_one : crc8 [0x01] = 0x07 ∧ crc8 (List.replicate 11 0) = 0 := by decide +kernel

/-- R1: the earlier-than rule across the wrap. -/
theorem test_earlier_across_the_wrap :
    earlier 0xFFFFFFFF 0 = true ∧ earlier 0 0xFFFFFFFF = false ∧ earlier 5 5 = false
      ∧ earlier 0 0x80000000 = false := by decide

/-- R10: 122,880 periods at fps 200. -/
theorem test_frame_interval : frameInterval 200 = 122880 := by decide +kernel

/-- R91: launches at 5,000, 5,000 and 5,012 withhold a fourth until the write of 5,100. -/
theorem test_governor_withholds_until_the_span_is_left :
    governorPermits { Station.default with launches := 3, span := 100 } [5000, 5000, 5012] 5099 = false
    ∧ governorPermits { Station.default with launches := 3, span := 100 } [5000, 5000, 5012] 5100 = true := by
  decide +kernel

/-- R46: floor division also of a negative difference. -/
theorem test_average_rounds_down : approach 4 0 (-1) = -1 ∧ approach 4 0 15 = 0 ∧ approach 4 0 16 = 1 := by
  decide +kernel

/-- R158: a slow_shift below the clamped fast_shift + 1, and an off at the clamped on. -/
theorem test_profile_clamps_in_order :
    (clampProfile { Profile.default .b0 with fastShift := 9, slowShift := 3, on := 10, off := 40 }).slowShift = 7
    ∧ (clampProfile { Profile.default .b0 with fastShift := 9, slowShift := 3, on := 10, off := 40 }).off = 16 := by
  decide

/-- The worked example "resolving a step" (chapter 6): a step at slot 20 of 32. -/
def stepWindow : List WindowSlot :=
  List.replicate 20 { energy := 1000, vertical := 0, gap := false, damaged := false, clipped := false }
    ++ List.replicate 12 { energy := 9000, vertical := 7000, gap := false, damaged := false, clipped := false }

theorem test_resolving_a_step :
    score stepWindow 8 = 95456 ∧ score stepWindow 20 = 91196 ∧ bestCandidate stepWindow = 20
    ∧ spreadWidth stepWindow 512 = 0 ∧ verticalFraction (onsetSpan stepWindow 16) = some 198
    ∧ peakEnergies (onsetSpan stepWindow 16) = (7000, 2000) := by decide +kernel

theorem test_resolving_silence :
    bestCandidate (windowOf 32 0) = 8 ∧ spreadWidth (windowOf 32 0) 512 = 16 ∧ uncertaintyClass 16 = 2
    ∧ verticalFraction (onsetSpan (windowOf 32 0) 16) = none := by decide +kernel

/-- The worked example "declaring on a step" (chapter 5): STA and LTA from n to n + 2. -/
theorem test_declaring_on_a_step :
    approach 3 256000 2304000 = 512000 ∧ approach 3 512000 2304000 = 736000 ∧ approach 8 256000 2304000 = 264000
    ∧ approach 8 264000 2304000 = 271968 ∧ approach 8 271968 2304000 = 279905 := by decide +kernel

/-! ### Single steps of the commands -/

theorem test_power_on_resets : after .powerOn (frameState .running 0 goodBytes) = State.reset := by decide +kernel

theorem test_reset_released_under_an_asserted_select_locks_out :
    (after (.reset (.released false true)) State.reset).ports.b.lockOut = true
    ∧ (after (.reset (.released false true)) State.reset).ports.a.lockOut = false := by decide +kernel

/-- Two bits of a response of 0x01 shifted out, then RESET; the transaction under RESET shifts out 0. -/
theorem test_reset_asserted_abandons_a_transaction :
    (after (.reset (.asserted (some [true, true, true, true, true, true, true, true]) none))
      { State.reset with
        ports := { State.reset.ports with a := { PortInterface.reset with response := .ok } } }).ports.a.dout =
      [false, false, false, false, false, false, false, true]
    ∧ (after (.take .b []) (after (.reset (.asserted none none)) State.reset)).ports.b.response = .nothing := by
  decide +kernel

theorem test_frame_writes_its_slot :
    (after (.frame 0) (frameState .searching 0 goodBytes)).intake.link = .running
    ∧ ((after (.frame 0) (frameState .searching 0 goodBytes)).ring.newest.map fun n => n.index) = some 42 := by
  decide +kernel

theorem test_frame_with_g_zero_is_discarded :
    (after (.frame 0) (frameState .running 1 goodBytes)).intake.nextIndex = 42 := by decide +kernel

/-- g = 3 of which two slots are left in hand: one GAP slot is written, and a mark then takes its index. -/
theorem test_time_mark_falls_among_gap_slots :
    (after (.timeMark 0) (after (.frame 2) (frameState .running 254 goodBytes))).tmu.latest.map (fun m => m.index) =
      some 42
    ∧ (after (.frame 2) (frameState .running 254 goodBytes)).intake.inHand =
      some { gaps := 1, reading := quietReading } := by decide +kernel

theorem test_assembly_timer_expiry_writes_damaged :
    ((after .assemblyTimerExpiry (timerState .running .assembly)).ring.read 42).slot.map (fun v => v.damaged) =
      some true := by decide +kernel

theorem test_link_timer_expiry_enters_lost :
    (after .linkTimerExpiry (timerState .running .link)).intake.link = .lost
    ∧ (after .linkTimerExpiry (timerState .running .link)).intake.gapSlotTimer = some 127880 := by decide +kernel

theorem test_gap_slot_timer_expiry_restarts :
    (after .gapSlotTimerExpiry (timerState .lost .gapSlot)).intake.gapRun = 1 := by decide +kernel

theorem test_time_mark_locks_after_two_regulars :
    (after (.timeMark 61440) (markedState .none 800 true 0)).tmu.timing = .locked
    ∧ ((after (.timeMark 61440) (markedState .none 800 true 0)).tmu.latest.map fun m => m.phase) = some 128 := by
  decide +kernel

theorem test_gap_run_event_closes_an_episode :
    ((after .gapRunEvent (unitState (declaredUnit 20000 900) false true)).list.records.map fun r => r.detail) =
      [.close { band := .b0, episode := 0, duration := 100, stacked := 0, cause := .gap }] := by decide +kernel

theorem test_watch_expiry_enters_holdover :
    (after .watchExpiry { markedState .locked 700 true 0 with owed := { Owed.nothing with timing := true } }).tmu.timing
      = .holdover := by decide +kernel

theorem test_holdover_expiry_enters_free :
    (after .holdoverExpiry
      { markedState .holdover 700 true 60001 with owed := { Owed.nothing with timing := true } }).tmu.timing
      = .free := by decide +kernel

/-- The TIMING records of the list, with the index of their latest mark. R27, R28: the change of a slot write, then
that of the mark which latches its index. -/
def timingsOf (s : State) : List (TimingState × Option Index) :=
  s.list.records.filterMap fun r =>
    match r.detail with
    | .timing x => some (x.timing, x.latest.map fun m => m.index)
    | .onset _ | .close _ | .intake _ => none

theorem test_time_mark_comes_after_its_slot_write :
    timingsOf (after (.timeMark 0) { markedState .locked 700 true 0 with owed := { Owed.nothing with timing := true } }) =
      [(.holdover, some 700)]
    ∧ timingsOf
      (after (.timeMark 0) { markedState .holdover 800 true 60001 with owed := { Owed.nothing with timing := true } }) =
      [(.free, some 800), (.locked, some 1000)] := by decide +kernel

/-- R31: a declaration of the slot write whose index the mark latches carries the state before the mark's change. -/
theorem test_time_mark_comes_after_a_declaration :
    ((after (.timeMark 0)
      { unitState (pendingUnit 49152) false false with tmu := (markedState .holdover 800 true 0).tmu }).refiner.lanes.l0.request.map
        fun r => r.timing) = some .holdover
    ∧ (after (.timeMark 0)
      { unitState (pendingUnit 49152) false false with tmu := (markedState .holdover 800 true 0).tmu }).tmu.timing
        = .locked := by decide +kernel

theorem test_warm_count_expiry_enters_idle :
    (after (.warmCountExpiry .b0) (unitState { unit0 with state := .warming, warmCount := 2000 } false false)).units.b0.state
      = .idle := by decide +kernel

theorem test_primary_declaration_counts_the_episode :
    (after (.primaryDeclaration .b0) (unitState (pendingUnit 49152) false false)).units.b0.episode = 0
    ∧ (after (.primaryDeclaration .b0) (unitState (pendingUnit 49152) false false)).refiner.history = [1000] := by
  decide +kernel

theorem test_stacked_declaration_counts_the_stack :
    (after (.stackedDeclaration .b0) (unitState (stackedUnit 40960) false false)).units.b0.stack = 1 := by
  decide +kernel

theorem test_max_dur_expiry_enters_cooldown :
    (after (.maxDurExpiry .b0)
      { unitState (declaredUnit 30000 900) false false with
        units := { State.reset.units with
          b0 := { declaredUnit 30000 900 with profile := { unit0.profile with maxDur := 256 }, tOn := some 744 } } }).units.b0.state
      = .cooldown := by decide +kernel

theorem test_dead_count_expiry_rewarms :
    (after (.deadCountExpiry .b0)
      (unitState { unit0 with state := .cooldown, deadCount := 100, rewarm := true } false false)).units.b0.state
      = .warming := by decide +kernel

theorem test_launch_waits_for_the_window_end :
    (after .launch (laneState (Lanes.all .free) [request 1700 1100] [])).refiner.lanes.l0 =
      .waiting (request 1700 1100) := by decide +kernel

/-- A head whose deadline is the newest index is not launched, though the lanes and the governor allow it. -/
theorem test_launch_leaves_a_head_whose_deadline_is_written :
    (after .launch (laneState (Lanes.all .free) [request 1000 900] [])).refiner.queue = [request 1000 900] := by
  decide +kernel

theorem test_scan_starts_at_the_window_end :
    (after .scanStart { laneState { Lanes.all .free with l2 := .waiting (request 1700 1000) } [] [] with
      owed := { Owed.nothing with refiner := .scanStart } }).refiner.lanes.l2 = .scanning (request 1700 1000) [] := by
  decide +kernel

theorem test_read_grant_prefers_the_earlier_deadline :
    ((after .readGrant (laneState
      { Lanes.all .free with l0 := .scanning (request 1700 1000) [], l3 := .scanning (request 1600 1000) [] } [] [])).refiner.lanes.l3)
      = .scanning (request 1600 1000)
          [{ energy := 0, vertical := 0, gap := false, damaged := false, clipped := false }] := by decide +kernel

theorem test_resolution_completion_frees_the_lane :
    (after (.resolutionCompletion .l1) (laneState
      { Lanes.all .free with l1 := .resolving (request 1700 1000) (windowOf 32 7) 0 } [] [])).refiner.lanes.l1 = .free
    ∧ ((after (.resolutionCompletion .l1) (laneState
      { Lanes.all .free with l1 := .resolving (request 1700 1000) (windowOf 32 7) 0 } [] [])).list.records.map
        fun r => r.key) = [977] := by decide +kernel

theorem test_deadline_expiry_empties_the_queue :
    (after .deadlineExpiry { laneState (Lanes.all .free) [request 1000 900, request 1001 900] [] with
      owed := { Owed.nothing with refiner := .expiry } }).refiner.queue = [request 1001 900] := by decide +kernel

theorem test_release_after_the_holdback :
    ((after .release { listState 1 false with owed := { Owed.nothing with list := .release } }).list.records.map
      fun r => r.released) = [true] := by decide +kernel

theorem test_retirement_at_the_age_limit :
    (after .retirement
      { oneSlot 0x80000063 false with
        list := { PickList.reset with records := [recordOf 0 100 true, recordOf 1 101 true] }
        owed := { Owed.nothing with list := .retire } }).list.records = [recordOf 1 101 true] := by decide +kernel

theorem test_identify_takes_the_highest :
    (after (.identify .a []) { State.reset with
      ports := { State.reset.ports with a := { PortInterface.reset with notices := 0x24, mask := 0xFF } } }).ports.a.response
      = .identified .nearFull true := by decide +kernel

theorem test_attach_all_answers_the_backlog :
    (after (.attachAll .b []) (listState 3 true)).ports.b.response = .attached 3 := by decide +kernel

theorem test_attach_from_now_removes_the_released :
    (after (.attachFromNow .b []) (listState 3 true)).list.records = [] := by decide +kernel

theorem test_detach_empties_the_sequence :
    (after (.detach .a []) (readerState 3 [0, 1])).readers.a = Reader.reset := by decide +kernel

theorem test_take_delivers_in_list_order :
    (after (.take .a []) (readerState 3 [0])).ports.a.response = .taken 1 (recordOf 1 101 true) := by decide +kernel

theorem test_confirm_removes_up_to_the_serial :
    (after (.confirm .a (bitsOfBytes [0x00, 0x01])) (readerState 3 [0, 1, 2])).list.records = [recordOf 2 102 true]
    ∧ (after (.confirm .a (bitsOfBytes [0x00, 0x01])) (readerState 3 [0, 1, 2])).ports.a.response = .counted 2 := by
  decide +kernel

theorem test_rewind_restores_the_backlog :
    (after (.rewind .a []) (readerState 3 [0, 1])).backlog .a = 3 := by decide +kernel

theorem test_fetch_of_the_newest_slot_fills :
    (after (.fetch .a (bitsOfBytes [0, 0, 0x03, 0xE8, 0x00, 0x01, 0x07])) (oneSlot 1000 false)).ports.a.engine =
      .filling { start := 1000, count := 1, mask := Bands.all true, returned := 0, buffer := [] } := by decide +kernel

theorem test_fetch_before_the_oldest_is_gone :
    (after (.fetch .a (bitsOfBytes [0, 0, 0x03, 0xE7, 0x00, 0x01, 0x07])) (oneSlot 1000 false)).ports.a.response =
      .gone (some (1000, 1000)) := by decide +kernel

theorem test_read_fetch_of_a_whole_fetch_idles :
    (after (.readFetch .a []) (engineState (.ready (fetchOf 16 0 16)) .idle 0 0 none)).ports.a.engine = .idle := by
  decide +kernel

theorem test_get_profile_of_band_three_is_bad_param :
    (after (.getProfile .a (bitsOfByte 3)) State.reset).ports.a.response = .badParam := by decide +kernel

theorem test_set_profile_short_of_a_byte :
    (after (.setProfile .a (bitsOfBytes (List.replicate 38 0))) State.reset).ports.a.response = .short 0x31 := by
  decide +kernel

theorem test_set_profile_takes_the_next_generation :
    (after (.setProfile .a (bitsOfBytes (List.replicate 39 0))) State.reset).units.b0.generation = 1
    ∧ noticeIn .settings (after (.setProfile .a (bitsOfBytes (List.replicate 39 0))) State.reset).ports.b.notices =
        true := by decide +kernel

theorem test_set_station_busy_while_running :
    (after (.setStation .b (bitsOfBytes (List.replicate 14 0)))
      { State.reset with settings := { Settings.reset with core := .running } }).ports.b.response = .busy := by
  decide +kernel

theorem test_set_station_divider_drops_the_link :
    (after (.setStation .b (bitsOfBytes
      [0x03, 0x20, 0, 3, 0, 100, 0, 40, 0, 200, 0x01, 0x2C, 0, 4])) (timerState .running .link)).intake.link = .lost := by
  decide +kernel

theorem test_set_port_lowered_to_the_backlog_raises :
    noticeIn .backlog (after (.setPort .a (bitsOfBytes [3, 0xFF])) (readerState 3 [])).ports.a.notices = true := by
  decide +kernel

theorem test_start_warms_the_bands :
    (after (.start .a []) State.reset).units.b2.state = .warming
    ∧ noticeIn .core (after (.start .a []) State.reset).ports.b.notices = true := by decide +kernel

theorem test_stop_empties_the_queue_and_keeps_the_history :
    (after (.stop .a []) (laneState (Lanes.all .free) [request 1700 1100] [900])).refiner =
      { queue := [], lanes := Lanes.all .free, history := [900] } := by decide +kernel

theorem test_get_anchor_answers_the_table :
    (after (.getAnchor .b []) State.reset).ports.b.response = .anchors .none 0 none none := by decide +kernel

theorem test_status_and_get_station_answer_what_stands :
    (after (.getStation .a []) State.reset).ports.a.response = .station Station.default 0
    ∧ (after (.status .a []) State.reset).ports.a.response.bytes =
        [1, 0, 0, 0, 0, 0, 0, 0, 0, 0, 0, 0, 0, 0, 0, 0, 0, 0xFF] := by decide +kernel

theorem test_port_reset_leaves_nothing_pending :
    (after (.portReset .a []) (readerState 3 [0, 1])).ports.a.response = .nothing
    ∧ (after (.portReset .a []) (readerState 3 [0, 1])).readers.a = Reader.reset := by decide +kernel

theorem test_empty_transaction_keeps_the_response :
    (after (.emptyTransaction .a [true]) State.reset).ports.a.response = .nothing := by decide +kernel

theorem test_unknown_request_echoes_its_code :
    (after (.unknownRequest .a 0x60 []) State.reset).ports.a.response.bytes = [0x05, 0x60] := by decide +kernel

theorem test_locked_out_select_shifts_out_zeros :
    (after (.lockedOutSelect .a 3 false) State.reset).ports.a.dout = [false, false, false] := by decide +kernel

theorem test_lock_out_lasts_until_the_release :
    (after (.lockedOutSelect .a 0 true) State.reset).ports.a.lockOut = true
    ∧ (after (.lockedOutSelect .a 0 false) (after (.lockedOutSelect .a 0 true) State.reset)).ports.a.lockOut =
      false := by decide +kernel

theorem test_attach_without_a_mode_is_short :
    (after (.attachUnknownMode .a [true]) State.reset).ports.a.response.bytes = [0x06, 0x10] := by decide +kernel

theorem test_byte_delivered_starts_a_frame :
    (after (.byteDelivered (lineOfByte 0xC5 true)) State.reset).intake.assembler = .assembling [] 123520 := by
  decide +kernel

/-- A receiver one sample before its stop bit's middle: the time TIME_MARK lets pass completes the byte at 4. -/
def lateByte (assembler : Assembler) : State :=
  { State.reset with
    intake := { FrameIntake.reset with
      receiver := { last := true, busy := some { count := 151, bits := 0xC5 } }, assembler := assembler } }

theorem test_time_mark_lets_the_line_be_sampled :
    (after (.timeMark 5) (lateByte .hunting)).intake.assembler = .assembling [] 122884
    ∧ (after (.timeMark 4) (lateByte .hunting)).intake.assembler = .hunting := by decide +kernel

/-- R191, R193: a TIMING record's packed field. -/
theorem test_packed_timing_field :
    ({ timing := .locked, latest := some { index := 200, phase := 204, regular := true }
       previous := some { index := 0, phase := 204, regular := true } } : TimingPart).bytes 200 =
      [0x73, 0x30, 0xCC, 0, 0, 0, 0, 0, 200] := by decide +kernel

/-! ### Witnesses: each statement's hypotheses are met -/

theorem settled_of (s : State) (ha : s.intake.assembler.complete = none) (hi : s.intake.inHand = none)
    (ho : s.owed = Owed.nothing) : s.Settled := ⟨ha, hi, ho⟩

theorem ports_open_of (s : State) (hr : s.resetHeld = false) (ho : s.owed = Owed.nothing) : s.PortsOpen :=
  ⟨hr, by rw [ho]; exact .inr rfl, by rw [ho]; exact .inr rfl⟩

theorem witness_StepRunsTheFrontCommand :
    ({ State.reset with pending := [.frame 0, .launch] } : State).pending = .frame 0 :: [.launch]
    ∧ State.reset.pending = [] := by decide

theorem witness_CommandsCompleteAndKeepTheQueue :
    (∃ t, exec (.frame 0) (frameState .searching 0 goodBytes) = .next t)
    ∧ (Instr.unknownRequest .a 0x60 []).wellFormed = true
    ∧ (Instr.unknownRequest .a 0x12 []).wellFormed = false := ⟨⟨_, rfl⟩, by decide, by decide⟩

theorem witness_TransactionBitsSpellTheirCommand :
    (Instr.attachAll .a [true]).wellFormed = true
    ∧ encodeTransaction (.attachAll .a [true]) =
        some (.a, bitsOfBytes [0x10, 0x01] ++ [true]) := by decide

def heldReset : State := { State.reset with resetHeld := true }

/-- RESET asserted and released, a handling that has begun, a whole and a surplus SET PROFILE, and a SET STATION that
keeps, clamps to, and changes the divider. -/
theorem witness_PortCommandsStandBetweenEvents :
    (Instr.take .b []).wellFormed = true ∧ encodeTransaction (.take .b []) = some (.b, bitsOfByte 0x12)
    ∧ heldReset.resetHeld = true ∧ State.reset.resetHeld = false
    ∧ State.reset.NothingBegun ∧ State.reset.Settled
    ∧ 312 ≤ (bitsOfBytes (List.replicate 39 0)).length
    ∧ (∀ x ∈ stationWords Station.default, x < 65536)
    ∧ min Station.default.linkDivider 255 = State.reset.settings.station.linkDivider
    ∧ min ({ Station.default with linkDivider := 256 } : Station).linkDivider 255
        ≠ State.reset.settings.station.linkDivider
    ∧ (∀ p rest, Instr.take .b [] ≠ .setProfile p rest ∧ Instr.take .b [] ≠ .setStation p rest
        ∧ Instr.take .b [] ≠ .start p rest ∧ Instr.take .b [] ≠ .stop p rest)
    ∧ (∃ t, exec (.take .b []) State.reset = .next t) ∧ ∃ t, exec (.stop .b []) State.reset = .next t :=
  ⟨by decide, by decide, rfl, rfl, (ports_open_of _ rfl rfl).2, settled_of _ rfl rfl rfl, by decide +kernel, by decide,
    by decide, by decide, fun p rest => ⟨nofun, nofun, nofun, nofun⟩, ⟨_, rfl⟩, _, rfl⟩

/-! The conditions that every step keeps hold of a state in which the next step writes a slot. -/

def freshBusyState : State :=
  { State.reset with
    intake := { FrameIntake.reset with assembler := .assembling goodBytes 200000 }, pending := [.frame 0] }

theorem witness_of_a_step : ∃ t, step freshBusyState = .next t := ⟨_, rfl⟩

theorem witness_RingKeptByEveryStep : freshBusyState.RingKept := by
  unfold State.RingKept; decide +kernel

theorem witness_LinkKeptByEveryStep : freshBusyState.LinkKept :=
  ⟨Nat.zero_le _, (fun h => by cases h), rfl, rfl, rfl, rfl⟩

theorem settings_legal_of_reset (s : State) (hs : s.settings = Settings.reset) (hu : s.units = State.reset.units)
    (hr : s.readers = State.reset.readers) : s.SettingsLegal := by
  unfold State.SettingsLegal
  rw [hs, hu, hr]
  refine ⟨by unfold Station.Legal; decide +kernel, fun b => ?_, fun b g h => ?_, fun p => ?_⟩
  · cases b <;> unfold Profile.Legal <;> decide +kernel
  · cases b <;> cases h
  · cases p <;> decide +kernel

theorem witness_SettingsLegalAfterEveryStep : freshBusyState.SettingsLegal := settings_legal_of_reset _ rfl rfl rfl

theorem witness_CoreAndUnitsKeptByEveryStep : freshBusyState.CoreKept ∧ freshBusyState.UnitsKept := by
  refine ⟨⟨fun b => by cases b <;> rfl, rfl, rfl, rfl⟩, fun b => ?_⟩
  cases b <;> unfold TriggerUnit.Kept <;> decide +kernel

theorem witness_RefinerAndEnginesKeptByEveryStep : freshBusyState.RefinerKept ∧ freshBusyState.EnginesKept :=
  ⟨⟨fun l => by cases l <;> trivial, by decide⟩, fun p => by cases p <;> trivial⟩

/-- A request whose window starts `age` slots before index 0, with a window of 256 slots and its trigger in the middle. -/
def requestAt (age : Nat) : Request :=
  { band := .b0, episode := 0, stack := 0, trigger := BitVec.ofNat 32 128 - BitVec.ofNat 32 age
    ws := 0 - BitVec.ofNat 32 age, we := BitVec.ofNat 32 255 - BitVec.ofNat 32 age
    deadline := 0 - BitVec.ofNat 32 age + BitVec.ofNat 32 800, fields := (Profile.default .b0).refineFields, ratio := 48
    generation := 0, timing := .none, windowEnd := BitVec.ofNat 32 255 - BitVec.ofNat 32 age, truncated := false }

/-- Index 0 written, band 0 confirming a trigger, a request queued, one at a lane that scans and one whose expiry is
owed, and a list of a released record at the age limit, a released one and a held one; DEADLINE_EXPIRY waits. -/
def flightState : State :=
  { oneSlot 0 false with
    intake := { FrameIntake.reset with nextIndex := 1 }
    settings := { Settings.reset with core := .running }
    units :=
      { b0 := { unit0 with state := .pending, frozenLta := some 0, tOn := some (0 - 8), confirmCount := 8 }
        b1 := { TriggerUnit.reset .b1 with state := .idle }, b2 := { TriggerUnit.reset .b2 with state := .idle } }
    refiner :=
      { queue := [requestAt 300]
        lanes := { Lanes.all .free with l0 := .scanning (requestAt 500) (windowOf 3 7), l1 := .waiting (requestAt 800) }
        history := [] }
    list := { PickList.reset with
      records :=
        [recordOf 0 (0 - 2147483647) true, recordOf 1 (0 - BitVec.ofNat 32 800) true,
          recordOf 2 (0 - BitVec.ofNat 32 20) false]
      nextSerial := 3 }
    owed := Owed.all false
    pending := [.deadlineExpiry] }

theorem flight_requests (r : Request) (h : flightState.InFlight r) :
    r = requestAt 300 ∨ r = requestAt 500 ∨ r = requestAt 800 := by
  rcases h with h | ⟨l, h⟩
  · exact .inl (by simpa [flightState] using h)
  · cases l <;> simp [flightState, Lanes.get, Lanes.all, Lane.request] at h <;> simp [h]

theorem witness_RefinerAndEnginesKeptByEveryStep_requests :
    flightState.RingKept ∧ flightState.SettingsLegal ∧ flightState.CoreKept ∧ flightState.UnitsKept
    ∧ flightState.RefinerKept ∧ flightState.RequestsKept ∧ ∃ t, step flightState = .next t := by
  refine ⟨by unfold State.RingKept; decide +kernel, ⟨by unfold Station.Legal; decide +kernel, fun b => ?_, fun b g h => ?_,
    fun p => ?_⟩, fun b => ?_, fun b => ?_, ⟨fun l => ?_, by decide⟩, ⟨fun r h => ?_, fun l r w h => ?_, fun l r w k h => ?_,
    fun b => ⟨fun a hs ha => ?_, fun a hs ha => ?_⟩, fun h => by cases h⟩, _, rfl⟩
  · cases b <;> unfold Profile.Legal <;> decide +kernel
  · cases b <;> cases h
  · cases p <;> decide +kernel
  · cases b <;> decide
  · cases b <;> unfold TriggerUnit.Kept <;> decide +kernel
  · cases l <;> first | trivial | exact (by decide +kernel : (windowOf 3 7).length < (requestAt 500).length)
  · rcases flight_requests r h with rfl | rfl | rfl <;> unfold State.RequestKept <;> decide +kernel
  · cases l <;> simp [flightState, Lanes.get, Lanes.all] at h
    rw [← h.1]; unfold State.EndWritten; decide +kernel
  · cases l <;> simp [flightState, Lanes.get, Lanes.all] at h
  · cases b <;> simp [flightState, Bands.get, unit0] at hs ha
    subst ha; unfold State.Confirming; decide +kernel
  · cases b <;> simp [flightState, Bands.get] at hs

theorem witness_ListAndBacklogsKeptByEveryStep :
    freshBusyState.ListKept ∧ freshBusyState.SettingsLegal ∧ freshBusyState.BacklogsKept := by
  refine ⟨by unfold State.ListKept; decide +kernel, witness_SettingsLegalAfterEveryStep, fun p => ?_⟩
  cases p <;> decide +kernel

/-- A record at the age limit while its retirement is owed, one released at the holdback exactly, and a held one. -/
theorem witness_ListAndBacklogsKeptByEveryStep_order : flightState.InListOrder := by
  refine ⟨?_, ?_, fun x hx hr => ⟨?_, fun r h => ?_⟩, (fun h => by cases h), (fun h => by cases h)⟩
  · unfold Record.Before; decide +kernel
  · decide +kernel
  · revert x; decide +kernel
  · rcases flight_requests r h with rfl | rfl | rfl <;> (revert x; decide +kernel)

/-- Readers with empty sequences are kept when the detached ones have no mark. -/
theorem readers_kept_of_nobody (s : State) (hr : ∀ p, (s.readers.get p).delivered = [])
    (hm : ∀ r ∈ s.list.records, ∀ p, r.marks.get p = false) : s.ReadersKept := fun p =>
  ⟨fun _ => ⟨hr p, fun r h => hm r h p⟩, by simp [hr p], by simp [hr p], fun v h => by rw [hr p] at h; cases h⟩

theorem witness_ReadersKeptByEveryStep : freshBusyState.ListKept ∧ freshBusyState.ReadersKept := by
  refine ⟨witness_ListAndBacklogsKeptByEveryStep.1, readers_kept_of_nobody _ (fun p => by cases p <;> rfl) ?_⟩
  intro r h; cases h

theorem witness_AveragesKeptByEveryStep : freshBusyState.AveragesKept := by
  refine ⟨fun b => ?_, fun b => ⟨?_, ?_, ?_, fun x h => ?_, fun x h => ?_⟩, fun c h => ?_⟩
  · cases b <;> unfold AveragePair.Kept <;> decide +kernel
  · cases b <;> decide +kernel
  · cases b <;> decide +kernel
  · cases b <;> decide +kernel
  · cases b <;> cases h
  · cases b <;> cases h
  · cases h

/-- RESET asserted with a transaction in progress on one port only, the port locked out or not. -/
theorem witness_PowerOnAndResetLeaveTheResetState :
    ∀ lockOut : Bool, ∃ (s t : State) (a b bits : Option (List Bool)),
      exec (.reset (.asserted a b)) s = .next t
      ∧ bits = (match Port.a with | .a => a | .b => b) ∧ bits = some [true]
      ∧ (match Port.b with | .a => a | .b => b) = none ∧ (s.ports.get .a).lockOut = lockOut := fun lockOut =>
  ⟨{ State.reset with ports := { State.reset.ports with a := { PortInterface.reset with lockOut := lockOut } } }, _,
    some [true], none, some [true], rfl, rfl, rfl, rfl, rfl⟩

theorem witness_ReceiverTakesBytes : 1 ≤ 8 ∧ 8 ≤ 8 ∧ 9 ≤ 8 + 1 ∧ 153 ≤ 153 := by decide

theorem witness_AveragesAndEnergiesFollowTheirRules :
    (-1 : Int) ≤ 14 ∧ (14 : Int) < 15 ∧ (14 : Int) - (-1) < 2 ^ 4
    ∧ passed { fast := 2147483392, slow := -2147483648 }
        ≠ (({ fast := 2147483392, slow := -2147483648 } : AveragePair).fast - (-2147483648)) / 256 := by
  decide +kernel

theorem witness_BestCandidateIsTheEarliestLeast :
    2 ^ 9 ≤ 1000 ∧ 1000 < 2 ^ (9 + 1) ∧ 1 ≤ 1000 ∧ 1000 < 2 ^ 32
    ∧ 16 ≤ (windowOf 16 7).length ∧ (windowOf 16 7).length ≤ 512 ∧ 8 ≤ 8 ∧ 8 ≤ (windowOf 16 7).length - 8
    ∧ score (windowOf 16 7) 8 = score (windowOf 16 7) (bestCandidate (windowOf 16 7)) := by
  decide +kernel

theorem witness_WidthClassAndPhaseFollowTheirRules :
    16 ≤ (windowOf 16 7).length
    ∧ score (windowOf 16 7) 8 ≤ score (windowOf 16 7) (bestCandidate (windowOf 16 7)) + 0
    ∧ (windowOf 3 7).length < 4 ∧ sumEnergy (windowOf 4 0) = 0
    ∧ 4 ≤ (windowOf 4 7).length ∧ sumEnergy (windowOf 4 7) ≠ 0
    ∧ (∀ x ∈ windowOf 4 7, x.vertical.toNat ≤ x.energy.toNat)
    ∧ (Profile.default .b0).refineFields.sThresh < (Profile.default .b0).refineFields.pThresh := by decide +kernel

theorem witness_ClampingGivesLegalSettings :
    (640 ≤ 4096 ∧ 639 < 640 ∧ 4096 < 4097) ∧ (Profile.default .b1).Legal ∧ Station.default.Legal := by
  unfold Profile.Legal Station.Legal; decide +kernel

theorem witness_InsertionPlacesARecord :
    ({ listState 55 true with
        list := { (listState 55 true).list with nearFullArmed := true } } : State).ListKept
    ∧ (listState 55 true).list.records.length = 55 ∧ (listState 63 true).ListKept
    ∧ (∀ x ∈ (listState 63 true).list.records, x.serial ≠ (listState 63 true).list.nextSerial)
    ∧ (1000 - 130 : Index).toNat < 2147483648
    ∧ (∀ x ∈ (listState 63 true).list.records, (1000 - x.key).toNat < 2147483648)
    ∧ (listState 63 true).list.records.Pairwise (fun x y => x.key = y.key ∨ earlier x.key y.key = true) := by
  unfold State.ListKept; decide +kernel

theorem witness_FullListEvictsItsHead :
    (listState 64 true).list.records = recordOf 0 100 true :: (listState 64 true).list.records.tail
    ∧ (listState 64 true).list.records.tail.length = 63
    ∧ (readerState 64 [0]).ListKept ∧ (readerState 64 [0]).readers.a.attached = true
    ∧ (recordOf 0 100 true).marks.a = false ∧ (readerState 64 [0]).readers.b.attached = false
    ∧ (∀ x ∈ (listState 64 true).list.records.tail, x.serial ≠ (listState 64 true).list.nextSerial)
    ∧ (∀ x ∈ (listState 64 true).list.records.tail, (1000 - x.key).toNat < 2147483648)
    ∧ (listState 64 true).list.records.tail.Pairwise (fun x y => x.key = y.key ∨ earlier x.key y.key = true) := by
  unfold State.ListKept; decide +kernel

/-! ### Witnesses: the layouts -/

theorem witness_ResponsesBeginWithTheirStatus :
    ∀ bs, bs = (Response.gone (some (1, 2))).bytes →
      bs = (Response.gone (some (1, 2))).bytes ∧ 10 = 10
        ∨ bs = (Response.notYetHeld (some (1, 2))).bytes ∧ 10 = 11 := fun _ h => .inl ⟨h, rfl⟩

def statusOf (link : LinkState) (timing : TimingState) (newest : Option Index) : StatusBlock :=
  { core := .running, link := link, timing := timing, attached := true, backlog := 64, deliveredLength := 16
    fill := 64, generation := 65535, newest := newest, engine := 2, notices := 255, mask := 255 }

theorem witness_ReadingResponsesCarryTheirFields :
    ∀ (link : LinkState) (timing : TimingState) (newest : Option Index) (latest : Option Anchor),
      (statusOf link timing newest).link = link ∧ (statusOf link timing newest).timing = timing
      ∧ (statusOf link timing newest).newest = newest
      ∧ (latest = latest ∧ 6 = 6 ∨ latest = none ∧ 6 = 13) ∧ 18 < 19 ∧ 6 < 7 :=
  fun _ _ _ _ => ⟨rfl, rfl, rfl, .inl ⟨rfl, rfl⟩, by decide, by decide⟩

/-- A TIMING record with both anchors of the largest phase, a slot stored, and one overwritten. -/
theorem witness_RecordsAndSlotsCarryTheirFields :
    (∃ (r : Record) (t : TimingPart) (l p : Anchor), r.detail = .timing t ∧ t.latest = some l ∧ t.previous = some p
      ∧ l.phase ≤ 1023 ∧ p.phase ≤ 1023 ∧ l.phase = 1023)
    ∧ (recordOf 0 100 true).detail = aClose
    ∧ (∃ x : ReadResult, x.slot = some (quietSlot true)) ∧ (∃ x : ReadResult, x.slot = none)
    ∧ ({ b0 := false, b1 := true, b2 := true } : Bands Bool).get .b2 = true :=
  ⟨⟨{ recordOf 0 100 true with
        detail := .timing
          { timing := .free, latest := some { index := 90, phase := 1023, regular := true }
            previous := some { index := 0, phase := 0, regular := true } } },
      _, _, _, rfl, rfl, rfl, by decide, by decide, rfl⟩,
    rfl, ⟨{ index := 0, slot := some (quietSlot true) }, rfl⟩, ⟨{ index := 0, slot := none }, rfl⟩, rfl⟩

/-! ### Witnesses: the slot write -/

/-- Index 0 written, with a resolution that three writes have followed, the gap-run count at its limit, HOLDOVER. -/
def slotState (core : CoreState) : State :=
  { oneSlot 0 false with
    intake := { FrameIntake.reset with nextIndex := 1, gapRun := 40 }
    refiner :=
      { queue := [], lanes := { Lanes.all .free with l1 := .resolving (request 1700 1000) (windowOf 32 7) 3 }
        history := [0] }
    tmu := { TimeMarkUnit.reset with timing := .holdover, holdover := 1 }
    settings := { Settings.reset with core := core } }

theorem slot_lanes (core : CoreState) :
    ∀ l q w n, (slotState core).refiner.lanes.get l = .resolving q w n → n < 4 := by
  intro l q w n h
  cases l <;> simp [slotState, Lanes.all, Lanes.get] at h
  omega

theorem witness_SlotWritesStoreAndCount :
    ∀ core : CoreState, (slotState core).owed = Owed.nothing
      ∧ (∀ l q w n, (slotState core).refiner.lanes.get l = .resolving q w n → n < 4)
      ∧ (slotState core).settings.core = core ∧ (slotState core).RingKept
      ∧ ∀ k : SlotKind,
        ((writeSlot k quietReading (slotState core)).ring.read 1).slot.isSome = true
        ∧ (0 : Index) ≠ 1 ∧ (writeSlot k quietReading (slotState core)).ring.holds 0 = true := by
  intro core
  refine ⟨rfl, slot_lanes core, rfl, by cases core <;> (unfold State.RingKept; decide +kernel), fun k => ?_⟩
  cases core <;> cases k <;> decide +kernel

/-- What the write of 1001 leaves owed to the refiner: a deadline, a window end, a launch, and nothing at all. -/
theorem witness_SlotWritesStoreAndCount_refiner :
    (writeSlot .good quietReading
      (laneState { Lanes.all .free with l1 := .scanning (request 1001 900) [] } [] [])).owed.refiner = .expiry
    ∧ (writeSlot .good quietReading
      (laneState { Lanes.all .free with l1 := .waiting (request 1700 1001) } [] [])).owed.refiner = .expiry
    ∧ (writeSlot .good quietReading (laneState (Lanes.all .free) [request 1800 1200] [])).owed.refiner = .expiry
    ∧ (writeSlot .good quietReading
      (laneState { Lanes.all .free with l1 := .waiting (request 1700 1002) } [] [])).owed.refiner = .done := by
  decide +kernel

/-- A held record of key 201 is due at 1001 and one of key 202 is not; the watch and the holdover limit are reached at
1001, and one slot later. -/
theorem witness_SlotWritesStoreAndCount_list_and_timing :
    (∀ key : Index, (key = 201 ∨ key = 202) →
      ((writeSlot .good quietReading
        { oneSlot 1000 false with
          list := { PickList.reset with records := [recordOf 0 key false], nextSerial := 1 } }).owed.list
            = if key = 201 then .retire else .done))
    ∧ (writeSlot .good quietReading (markedState .locked 701 true 0)).owed.timing = true
    ∧ (writeSlot .good quietReading (markedState .locked 702 true 0)).owed.timing = false
    ∧ (writeSlot .good quietReading (markedState .holdover 701 true 60000)).owed.timing = true
    ∧ (writeSlot .good quietReading (markedState .holdover 701 true 59999)).owed.timing = false := by
  refine ⟨?_, by decide +kernel⟩
  rintro key (rfl | rfl) <;> decide +kernel

/-- Lane 1 overdue, with lane 0 in a resolution that three writes have followed. -/
theorem witness_SlotWritesStoreAndCount_overdue :
    ∃ s u : State, s.owed = Owed.nothing ∧ s.refiner.lanes.get .l1 = .resolving (request 1700 1000) (windowOf 32 7) 4
      ∧ (∀ j, [LaneId.l0, .l1, .l2, .l3].idxOf j < [LaneId.l0, .l1, .l2, .l3].idxOf .l1 →
        ∀ q w m, s.refiner.lanes.get j = .resolving q w m → m < 4)
      ∧ exec (.resolutionCompletion .l1) s = .next u :=
  ⟨laneState
      { Lanes.all .free with
        l0 := .resolving (request 1701 1000) (windowOf 32 7) 3, l1 := .resolving (request 1700 1000) (windowOf 32 7) 4 }
      [] [], _, rfl, rfl,
    fun j hj q w m h => by
      cases j
      · cases h; decide
      all_goals exact absurd hj (by decide),
    rfl⟩

theorem witness_UnitsAverageAndCount :
    ({ unit0 with state := .warming } : TriggerUnit).state = .warming ∧ unit0.state = .off
    ∧ ({ unit0 with state := .idle } : TriggerUnit).state = .idle ∧ (pendingUnit 7).state = .pending
    ∧ (declaredUnit 7 900).state = .declared ∧ ({ unit0 with state := .cooldown } : TriggerUnit).state = .cooldown := by
  decide

/-- Band 0 as given before a slot write that owes nothing to an earlier one. -/
def unitWrite (u : TriggerUnit) : State :=
  { oneSlot 1000 false with
    units := { State.reset.units with b0 := u }
    settings := { Settings.reset with core := .running } }

/-- The hypotheses that all cases of a unit's slot write share, and a property of the unit once counted. -/
def unitCase (cal : Bool) (u0 : TriggerUnit) (p : TriggerUnit → Bool) : Bool :=
  let t := writeSlot .good { quietReading with cal := cal } (unitWrite u0)
  match (t.ring.read 1001).slot with
  | none => false
  | some v => !t.owed.gapRun && p ((unitWrite u0).units.b0.tick (v.energy.get .b0) cal t.owed.gapRun)

theorem unit_write_hypotheses (u : TriggerUnit) :
    (unitWrite u).owed = Owed.nothing
    ∧ (∀ l q w n, (unitWrite u).refiner.lanes.get l = .resolving q w n → n < 4)
    ∧ (unitWrite u).intake.nextIndex = 1001 ∧ (unitWrite u).list.records.length ≤ 61 := by
  refine ⟨rfl, fun l q w n h => ?_, rfl, Nat.zero_le _⟩
  cases l <;> cases h

/-- LTA floored at 1, so that the tests of default thresholds stand at an STA of 768, 384 and 640. -/
def lowUnit (state : BandState) (sta : Nat) : TriggerUnit :=
  { unit0 with
    state := state, sta := sta, profile := { unit0.profile with ltaFloor := 1, maxDur := 256 } }

def lowDeclared (sta : Nat) (tOn : Index) : TriggerUnit :=
  { lowUnit .declared sta with frozenLta := some 0, staMin := 256, tOn := some tOn }

/-- Each count at its length and one short of it. -/
theorem witness_UnitsMoveAtSlotWrites_counts :
    (unitCase false { lowUnit .warming 0 with warmCount := 1999 } fun u => decide (u.profile.warmLen ≤ u.warmCount))
    ∧ (unitCase false { lowUnit .warming 0 with warmCount := 1998 } fun u => decide (u.warmCount < u.profile.warmLen))
    ∧ (unitCase true { lowUnit .warming 0 with warmCount := 1999 } fun u => decide (u.state = .warming))
    ∧ (unitCase false { lowUnit .pending 0 with frozenLta := some 0, tOn := some 993, confirmCount := 7 } fun u =>
        decide (u.confirmCount = u.profile.confirmLen))
    ∧ (unitCase false { lowUnit .pending 0 with frozenLta := some 0, tOn := some 994, confirmCount := 6 } fun u =>
        decide (u.confirmCount ≠ u.profile.confirmLen))
    ∧ (unitCase true { lowUnit .pending 0 with frozenLta := some 0, tOn := some 994 } fun u =>
        decide (u.state = .pending))
    ∧ (unitCase false { lowUnit .cooldown 0 with deadCount := 99 } fun u =>
        decide (u.profile.deadLen ≤ u.deadCount) && !u.rewarm)
    ∧ (unitCase false { lowUnit .cooldown 0 with deadCount := 98 } fun u =>
        decide (u.deadCount < u.profile.deadLen))
    ∧ (unitCase true { lowUnit .cooldown 0 with deadCount := 99 } fun u => u.rewarm) := by decide +kernel

/-- The ON test at its boundary, and CAL and the re-warm in IDLE. -/
theorem witness_UnitsMoveAtSlotWrites_idle :
    (unitCase false (lowUnit .idle 793) fun u =>
        decide (16 * u.sta = u.profile.on * max (u.frozenLta.getD u.lta) (256 * u.profile.ltaFloor)) && !u.rewarm)
    ∧ (unitCase false (lowUnit .idle 792) fun u =>
        decide (16 * u.sta < u.profile.on * max (u.frozenLta.getD u.lta) (256 * u.profile.ltaFloor)))
    ∧ (unitCase true (lowUnit .idle 793) fun u => decide (u.state = .idle))
    ∧ (unitCase false { lowUnit .idle 793 with rewarm := true } fun u => u.rewarm) := by decide +kernel

/-- The OFF test, max_dur and the jump test at their boundaries, a confirmation at its end, CAL. -/
theorem witness_UnitsMoveAtSlotWrites_declared :
    (unitCase false (lowDeclared 396 746) fun u =>
        decide (16 * u.sta < u.profile.off * max (u.frozenLta.getD u.lta) (256 * u.profile.ltaFloor)))
    ∧ (unitCase false (lowDeclared 397 745) fun u =>
        decide (16 * u.sta = u.profile.off * max (u.frozenLta.getD u.lta) (256 * u.profile.ltaFloor)
          ∧ u.tOn = some 745 ∧ u.profile.maxDur = (1001 - 745 : Index).toNat))
    ∧ (unitCase false { lowDeclared 397 746 with tOn2 := some 994, heldMin := some 256, stackCount := 7 } fun u =>
        decide ((1001 - 746 : Index).toNat < u.profile.maxDur ∧ u.stackCount = u.profile.confirmLen))
    ∧ (unitCase false { lowDeclared 397 746 with tOn2 := some 994, heldMin := some 256, stackCount := 6 } fun u =>
        decide (u.stackCount ≠ u.profile.confirmLen))
    ∧ (unitCase false { lowDeclared 661 746 with stack := 2 } fun u =>
        decide (16 * u.sta = u.profile.jump * max u.staMin (256 * u.profile.ltaFloor) ∧ u.stack < 3
          ∧ u.tOn2 = none))
    ∧ (unitCase false { lowDeclared 661 746 with stack := 3 } fun u => decide (3 ≤ u.stack ∧ u.tOn2 = none))
    ∧ (unitCase false (lowDeclared 660 746) fun u =>
        decide (16 * u.sta < u.profile.jump * max u.staMin (256 * u.profile.ltaFloor)))
    ∧ (unitCase true (lowDeclared 661 746) fun u => decide (u.state = .declared)) := by decide +kernel

/-- The gap-run event and the write just before it, and a staged profile of the same and of other shifts. -/
theorem witness_UnitsMoveAtSlotWrites_event :
    (∀ n : Nat, n = 39 ∨ n = 40 →
      ((writeSlot .gap quietReading { unitWrite (lowUnit .idle 0) with
        intake := { (unitWrite (lowUnit .idle 0)).intake with gapRun := n } }).owed.gapRun = true ↔ n = 40))
    ∧ (Profile.default .b0).fastShift = unit0.profile.fastShift
    ∧ (Profile.default .b1).fastShift ≠ unit0.profile.fastShift := by
  refine ⟨?_, by decide, by decide⟩
  rintro n (rfl | rfl) <;> decide +kernel

/-! ### Witnesses: the digitizer link -/

theorem witness_BytesReachTheAssembler :
    State.reset.Settled ∧ State.reset.resetHeld = false
    ∧ State.reset.intake.receiver = { last := true, busy := none }
    ∧ State.reset.clock.now ≤ State.reset.intake.nextSample
    ∧ 640 = State.reset.intake.nextSample + 159 * (State.reset.settings.station.linkDivider + 1)
    ∧ ∀ k d, State.reset.timer k = some d → 640 ≤ d :=
  ⟨settled_of _ rfl rfl rfl, rfl, rfl, by decide, by decide, fun k d h => by cases k <;> cases h⟩

/-- A frame in assembly whose timer expires at the very instant of the byte. -/
theorem witness_BytesReachTheAssembler_assembling :
    ∃ s : State, s.Settled ∧ s.intake.receiver = { last := true, busy := none }
      ∧ s.intake.assembler = .assembling [] 640 ∧ s.intake.nextSample = 4 ∧ s.settings.station.linkDivider = 3
      ∧ ∀ k d, s.timer k = some d → 640 ≤ d := by
  refine ⟨State.reset.setIntake { FrameIntake.reset with assembler := .assembling [] 640 },
    settled_of _ rfl rfl rfl, rfl, rfl, rfl, rfl, fun k d h => ?_⟩
  cases k <;> simp_all [State.timer, State.setIntake, Assembler.expiry, FrameIntake.reset]

/-- The byte's last sample is the last before the instant, hunting and with ten bytes of a frame. -/
theorem witness_BytesReachTheAssembler_in_time :
    ∀ a, a = Assembler.hunting ∨ a = .assembling (linkBytes (List.replicate 10 0)) 5 →
      (lateByte a).Settled ∧ (lateByte a).ring.newest = none
      ∧ (lateByte a).clock.now ≤ (lateByte a).intake.nextSample
      ∧ 1 = (lateByte a).samplesBefore 5
      ∧ rxRun (lateByte a).level 1 (lateByte a).intake.receiver =
          { receiver := { last := true, busy := none }, byte := some { value := 0xC5, fault := false }, left := 0 }
      ∧ (∀ k d, (lateByte a).timer k = some d → 5 ≤ d) ∧ (lateByte a).SettingsLegal
      ∧ ∀ bytes e, (lateByte a).intake.assembler = .assembling bytes e → bytes.length < 11 := by
  rintro a (rfl | rfl) <;>
    refine ⟨settled_of _ (by decide +kernel) rfl rfl, rfl, by decide, by decide, by decide, ?_,
      settings_legal_of_reset _ rfl rfl rfl, fun bytes e h => by cases h; try decide⟩ <;>
    intro k d h <;>
    cases k <;> simp_all [State.timer, lateByte, Assembler.expiry, FrameIntake.reset, State.reset]

theorem witness_FramesAreJudged :
    badBytes.length = 12
    ∧ (badBytes.map LinkByte.value).getLast? ≠ some (crc8 ((badBytes.map LinkByte.value).take 11))
    ∧ (∃ b ∈ [({ value := 0, fault := true } : LinkByte)], b.fault = true) := by decide +kernel

theorem witness_GoodFramesBringTheLinkToRunning :
    ∀ link, link = .searching ∨ link = .lost →
      (frameState link 0 goodBytes).intake.assembler = .assembling goodBytes 200000 ∧ goodBytes.length = 12
      ∧ judgeFrame goodBytes = some { counter := 0, reading := quietReading }
      ∧ (frameState link 0 goodBytes).intake.inHand = none
      ∧ (frameState link 0 goodBytes).intake.link = link ∧ link ≠ .running := by
  rintro link (rfl | rfl) <;> decide +kernel

/-- g = 0, 1 and 3. -/
theorem witness_RunningFramesFillTheirGaps :
    ∀ expected : Byte, expected = 1 ∨ expected = 0 ∨ expected = 254 →
      (frameState .running expected goodBytes).intake.assembler = .assembling goodBytes 200000
      ∧ goodBytes.length = 12 ∧ judgeFrame goodBytes = some { counter := 0, reading := quietReading }
      ∧ (frameState .running expected goodBytes).intake.inHand = none
      ∧ (frameState .running expected goodBytes).intake.link = .running
      ∧ (frameState .running expected goodBytes).intake.expected = some expected
      ∧ (frameState .running expected goodBytes).intake.lastGood = some quietReading
      ∧ (if expected = 1 then 0 else if expected = 0 then 1 else 3) = (0 + 256 - expected.toNat + 1) % 256 := by
  rintro expected (rfl | rfl | rfl) <;> decide +kernel

/-- What is in hand once `j` of `g` slots are written. -/
def heldAfter (g j : Nat) : Option FrameInHand :=
  if g ≤ j then none else some { gaps := g - 1 - j, reading := quietReading }

/-- A frame's slots one after another. -/
def slotsWritten (g : Nat) (s : State) : Nat → State
  | 0 => s
  | j + 1 =>
    let t := slotsWritten g s j
    if j + 1 < g then writeSlot .gap quietReading (t.setIntake { t.intake with inHand := heldAfter g (j + 1) })
    else
      writeSlot .good quietReading (t.setIntake { t.intake with inHand := none, lastGood := some quietReading })

theorem witness_RunningFramesFillTheirGaps_slots :
    ∀ (g : Nat) (s : State), 1 ≤ g →
      slotsWritten g s 0 = s
      ∧ (∀ j, j + 1 < g → slotsWritten g s (j + 1) =
          writeSlot .gap quietReading ((slotsWritten g s j).setIntake
            { (slotsWritten g s j).intake with inHand := heldAfter g (j + 1) }))
      ∧ slotsWritten g s g =
          writeSlot .good quietReading ((slotsWritten g s (g - 1)).setIntake
            { (slotsWritten g s (g - 1)).intake with inHand := none, lastGood := some quietReading }) := by
  intro g s hg
  refine ⟨rfl, fun j h => by simp [slotsWritten, h], ?_⟩
  obtain ⟨n, rfl⟩ : ∃ n, g = n + 1 := ⟨g - 1, by omega⟩
  simp [slotsWritten]

theorem witness_DamagedFramesKeepTheirPlace :
    ∀ link : LinkState,
      (frameState link 0 badBytes).intake.assembler = .assembling badBytes 200000 ∧ badBytes.length = 12
      ∧ judgeFrame badBytes = none ∧ (frameState link 0 badBytes).intake.inHand = none
      ∧ (frameState link 0 badBytes).intake.link = link
      ∧ (link = .running → (frameState link 0 badBytes).intake.expected = some 0
          ∧ (frameState link 0 badBytes).intake.lastGood = some quietReading) := by
  intro link; cases link <;> decide +kernel

/-- Each timer at the first sample after its expiry, the assembly timer in every link state. -/
theorem witness_TimersExpire :
    ∀ k link, (k = Timer.assembly ∨ k = .link ∧ link = .running ∨ k = .gapSlot ∧ link = .lost) →
      ∃ s, s = (timerState link k).setIntake { (timerState link k).intake with nextSample := 5000 }
        ∧ s.Settled ∧ s.clock.now ≤ 5000 ∧ s.clock.now ≤ s.intake.nextSample ∧ s.QuietUntil 5000
        ∧ s.intake.lastGood = some quietReading ∧ s.timer k = some 5000 ∧ s.intake.link = link
        ∧ (link = .running → s.intake.expected = some 0) := by
  intro k link _
  refine ⟨_, rfl, settled_of _ (by cases k <;> rfl) rfl rfl, Nat.zero_le _, Nat.zero_le _,
    quiet_of_idle_line _ _ rfl rfl fun j d h => ?_, rfl, by cases k <;> rfl, rfl, fun h => by subst h; rfl⟩
  cases k <;> cases j <;> simp_all [State.timer, timerState, Assembler.expiry, State.setIntake]

/-- The three judgements and all four timing states: a regular second mark, an irregular one, and no mark before. -/
theorem witness_TimeMarksMoveTheTimingState :
    ∀ timing : TimingState, ∀ latest : Index, (latest = 800 ∨ latest = 799 ∨ latest = 700) →
      (markedState timing latest true 3).Settled ∧ 61440 = (markedState timing latest true 3).clock.now + 61440
      ∧ 1 ≤ 61440 ∧ (markedState timing latest true 3).QuietUntil 61440
      ∧ (markedState timing latest true 3).ring.newest = some { index := 1000, accepted := 0 }
      ∧ (decide ((1000 - latest).toNat = 200 ∨ (1000 - latest).toNat = 201) = decide (latest ≠ 700)) := by
  rintro timing latest (rfl | rfl | rfl) <;>
    exact ⟨settled_of _ rfl rfl rfl, (Nat.zero_add _).symm, by decide, quiet_without_timers _ _ rfl rfl rfl rfl rfl,
      rfl, by decide⟩

/-- No slot written; and a mark at the present instant with slots of a frame in hand. -/
theorem witness_TimeMarksMoveTheTimingState_first :
    State.reset.ring.newest = none
    ∧ ∃ s u : State, (0 = 0 ∧ u = settleOwed s ∨ 1 ≤ 0)
      ∧ s.intake.inHand = some { gaps := 1, reading := quietReading }
      ∧ s.ring.newest.isSome = true :=
  ⟨rfl, after (.frame 2) (frameState .running 254 goodBytes), _, .inl ⟨rfl, rfl⟩, by decide +kernel, by decide +kernel⟩

/-- A declaration of the first unit that owes, and the stacked one, with nothing else before it. -/
theorem witness_TimeMarksMoveTheTimingState_declared :
    ∀ u, (u = pendingUnit 49152 ∨ u = stackedUnit 49152) →
      ∃ s v w : State, s = unitState u false false ∧ s.NothingBegun ∧ s.owed.units.get .b0 = true
        ∧ (∀ earlier : Band, earlier.number < Band.b0.number → s.owed.units.get earlier = false)
        ∧ exec (.primaryDeclaration .b0) s = .next v ∧ exec (.stackedDeclaration .b0) s = .next w :=
  fun _ _ => ⟨_, _, _, rfl, ⟨.inr rfl, .inr rfl⟩, rfl, fun _ h => absurd h (Nat.not_lt_zero _), rfl, rfl⟩

/-- A mark that comes while the watch or the holdover limit is due, and one that comes with nothing due. -/
theorem witness_TimeMarksMoveTheTimingState_due :
    ∀ timing : TimingState, ∀ owed : Bool, ∃ s : State, (∀ b, s.owed.units.get b = false)
      ∧ s.owed.refiner = .done ∧ s.owed.list = .done ∧ s.owed.timing = owed
      ∧ s.tmu.timing = timing ∧ (∃ m, s.tmu.latest = some m ∧ 3 * s.settings.station.fps / 2 ≤ (1000 - m.index).toNat)
      ∧ s.ring.newest = some { index := 1000, accepted := 0 }
      ∧ s.settings.station.holdoverLimit * s.settings.station.fps + 1 ≤ s.tmu.holdover
      ∧ ∃ v, exec .watchExpiry s = .next v := fun timing owed =>
  ⟨{ markedState timing 700 true 60001 with owed := { Owed.nothing with timing := owed } }, fun b => by cases b <;> rfl,
    rfl, rfl, rfl, rfl, ⟨_, rfl, (by decide : 3 * 200 / 2 ≤ (1000 - 700 : Index).toNat)⟩, rfl, (by decide : 300 * 200 + 1 ≤ 60001), _, rfl⟩

/-- Both lengths just reached, and both one short. -/
theorem witness_WatchAndHoldoverExpire :
    ∀ m : Index, ∀ count : Nat, (m = 700 ∧ count = 60001 ∨ m = 701 ∧ count = 60000) →
      ∃ s u : State, s.NothingBegun ∧ s.owed.timing = true ∧ s.tmu.timing = .locked
        ∧ s.tmu.latest.map (fun a => a.index) = some m ∧ s.ring.newest = some { index := 1000, accepted := 0 }
        ∧ (3 * s.settings.station.fps / 2 ≤ (1000 - m : Index).toNat ↔ m = 700)
        ∧ u.NothingBegun ∧ u.owed.timing = true ∧ u.tmu.timing = .holdover
        ∧ (u.settings.station.holdoverLimit * u.settings.station.fps + 1 ≤ u.tmu.holdover ↔ count = 60001) := by
  rintro m count (⟨rfl, rfl⟩ | ⟨rfl, rfl⟩)
  · exact ⟨{ markedState .locked 700 true 0 with owed := { Owed.nothing with timing := true } },
      { markedState .holdover 700 true 60001 with owed := { Owed.nothing with timing := true } },
      ⟨.inr rfl, .inr rfl⟩, rfl, rfl, rfl, rfl, by decide, ⟨.inr rfl, .inr rfl⟩, rfl, rfl, by decide⟩
  · exact ⟨{ markedState .locked 701 true 0 with owed := { Owed.nothing with timing := true } },
      { markedState .holdover 700 true 60000 with owed := { Owed.nothing with timing := true } },
      ⟨.inr rfl, .inr rfl⟩, rfl, rfl, rfl, rfl, by decide, ⟨.inr rfl, .inr rfl⟩, rfl, rfl, by decide⟩

/-! ### Witnesses: the Trigger Units -/

theorem nothing_begun_unit (u : TriggerUnit) (cal gapRun : Bool) : (unitState u cal gapRun).NothingBegun :=
  ⟨.inr rfl, .inr rfl⟩

theorem witness_GapRunsRestartTheBands :
    ∀ u : TriggerUnit, u = declaredUnit 20000 900 ∨ u = pendingUnit 20000 ∨ u = { unit0 with state := .idle } →
      (unitState u false true).NothingBegun ∧ (unitState u false true).owed.gapRun = true
      ∧ (∀ b, (unitState u false true).owed.units.get b = true)
      ∧ (unitState u false true).ring.newest = some { index := 1000, accepted := 0 }
      ∧ (unitState u false true).list.records.length ≤ 61 ∧ (unitState u false true).units.get .b0 = u
      ∧ ∃ s : State, s.NothingBegun ∧ s.owed = owesUnits true ∧ s.ring.newest = some { index := 1000, accepted := 0 }
        ∧ s.list.records.length = 64 :=
  fun u _ => ⟨nothing_begun_unit _ _ _, rfl, fun b => by cases b <;> rfl, rfl, Nat.zero_le _, rfl,
    { unitState u false true with list := (listState 64 true).list }, ⟨.inr rfl, .inr rfl⟩, rfl, rfl,
    (by decide : (listState 64 true).list.records.length = 64)⟩

/-- Boundary counts, warm_len and dead_len exactly, without and with the gap-run event. -/
theorem witness_WarmAndDeadCountsExpire :
    ∀ u cal gapRun, (u = { unit0 with state := .warming, warmCount := 2000 } ∧ cal = false
        ∨ u = { unit0 with state := .cooldown, deadCount := 100 }
        ∨ u = { unit0 with state := .cooldown, deadCount := 100, rewarm := true }) →
      (unitState u cal gapRun).NothingBegun ∧ u = (unitState u cal gapRun).units.get .b0
      ∧ (unitState u cal gapRun).owed.units.get .b0 = true ∧ (unitState u cal gapRun).owed.gapRun = gapRun
      ∧ (unitState u cal gapRun).newestCal = cal
      ∧ (u.state = .warming → u.profile.warmLen ≤ u.warmCount) ∧ u.profile.deadLen ≤ max u.deadCount u.warmCount := by
  rintro u cal gapRun (⟨rfl, rfl⟩ | rfl | rfl) <;>
    refine ⟨nothing_begun_unit _ _ _, rfl, rfl, rfl, ?_, ?_⟩ <;>
    first | (cases cal <;> cases gapRun <;> decide +kernel) | (cases gapRun <;> decide +kernel)

/-- Both sides of the ON test at its boundary, 3 times the LTA. -/
theorem witness_PrimaryDeclarationsMakeRequests :
    ∀ sta, sta = 49152 ∨ sta = 49151 →
      (unitState (pendingUnit sta) false false).NothingBegun
      ∧ (unitState (pendingUnit sta) false false).owed.units.get .b0 = true
      ∧ (unitState (pendingUnit sta) false false).owed.gapRun = false
      ∧ (unitState (pendingUnit sta) false false).newestCal = false
      ∧ (pendingUnit sta).state = .pending ∧ (pendingUnit sta).tOn = some 992
      ∧ (pendingUnit sta).confirmCount = (pendingUnit sta).profile.confirmLen
      ∧ (16 * sta ≥ (pendingUnit sta).profile.on
          * max ((pendingUnit sta).frozenLta.getD (pendingUnit sta).lta) (256 * (pendingUnit sta).profile.ltaFloor)
          ↔ sta = 49152)
      ∧ (pendingUnit sta).staged = none
      ∧ (unitState (pendingUnit sta) false false).refiner.queue.length < 6 := by
  rintro sta (rfl | rfl) <;> exact ⟨nothing_begun_unit _ _ _, by decide +kernel⟩

theorem witness_PrimaryDeclarationsMakeRequests_staged :
    ∀ p, p = Profile.default .b0 ∨ p = Profile.default .b1 →
      ({ pendingUnit 49151 with staged := some { profile := p, generation := 1 } } : TriggerUnit).staged =
        some { profile := p, generation := 1 }
      ∧ (p.fastShift = unit0.profile.fastShift ↔ p = Profile.default .b0) := by
  rintro p (rfl | rfl) <;> decide

/-- A declaration as it confirms, with six requests of its band queued. -/
def sixQueued (u : TriggerUnit) : State :=
  { unitState u false false with
    refiner := { queue := List.replicate 6 (request 1800 1200), lanes := Lanes.all .free, history := [] } }

theorem witness_DeclarationsWithSixQueued :
    (sixQueued (pendingUnit 49152)).NothingBegun ∧ (sixQueued (pendingUnit 49152)).units.b0 = pendingUnit 49152
    ∧ (sixQueued (stackedUnit 40960)).NothingBegun ∧ (sixQueued (stackedUnit 40960)).units.b0 = stackedUnit 40960
    ∧ 6 ≤ (sixQueued (pendingUnit 49152)).refiner.queue.length
    ∧ 6 ≤ (sixQueued (stackedUnit 40960)).refiner.queue.length
    ∧ (sixQueued (stackedUnit 40960)).owed.units.get .b0 = true
    ∧ (sixQueued (stackedUnit 40960)).newestCal = false :=
  ⟨⟨.inr rfl, .inr rfl⟩, rfl, ⟨.inr rfl, .inr rfl⟩, rfl, by decide, by decide, rfl, by decide +kernel⟩

/-- Both sides of the stacked test at its boundary, 2.5 times the held minimum. -/
theorem witness_StackedDeclarationsMakeRequests :
    ∀ sta, sta = 40960 ∨ sta = 40959 →
      (unitState (stackedUnit sta) false false).NothingBegun
      ∧ (unitState (stackedUnit sta) false false).owed.units.get .b0 = true
      ∧ (unitState (stackedUnit sta) false false).newestCal = false
      ∧ (stackedUnit sta).state = .declared ∧ (stackedUnit sta).tOn = some 900 ∧ (stackedUnit sta).tOn2 = some 992
      ∧ (stackedUnit sta).heldMin = some 16384 ∧ (1000 - 900 : Index).toNat < (stackedUnit sta).profile.maxDur
      ∧ (stackedUnit sta).stackCount = (stackedUnit sta).profile.confirmLen
      ∧ 16 * sta ≥ (stackedUnit sta).profile.off
          * max ((stackedUnit sta).frozenLta.getD (stackedUnit sta).lta) (256 * (stackedUnit sta).profile.ltaFloor)
      ∧ (16 * sta ≥ (stackedUnit sta).profile.jump * max 16384 (256 * (stackedUnit sta).profile.ltaFloor)
          ↔ sta = 40960)
      ∧ (unitState (stackedUnit sta) false false).refiner.queue.length < 6 := by
  rintro sta (rfl | rfl) <;> exact ⟨nothing_begun_unit _ _ _, by decide +kernel⟩

/-- A queued request and a WAITING lane, and two SCANNING lanes one slot short of the cut and just at it, all reached;
a request of an earlier window end is not. -/
theorem witness_TruncationsCutWindows :
    ∃ s : State, s.refiner.queue[0]? = some (request 1800 1200)
      ∧ s.refiner.lanes.get .l0 = .waiting (request 1700 1100)
      ∧ s.refiner.lanes.get .l1 = .scanning (request 1700 1000) (windowOf 22 7)
      ∧ s.refiner.lanes.get .l2 = .scanning (request 1700 1000) (windowOf 23 7)
      ∧ s.refiner.lanes.get .l3 = .scanning (request 1600 991) (windowOf 2 7)
      ∧ (request 1700 1000).band = .b0 ∧ earlier 992 (request 1700 1000).windowEnd = true
      ∧ (windowOf 22 7).length < ((992 : Index) - (request 1700 1000).ws).toNat
      ∧ ((992 : Index) - (request 1700 1000).ws).toNat ≤ (windowOf 23 7).length
      ∧ (992 : Index) ≠ (request 1600 991).windowEnd ∧ earlier 992 (request 1600 991).windowEnd = false :=
  ⟨laneState
    { l0 := .waiting (request 1700 1100), l1 := .scanning (request 1700 1000) (windowOf 22 7)
      l2 := .scanning (request 1700 1000) (windowOf 23 7), l3 := .scanning (request 1600 991) (windowOf 2 7) }
    [request 1800 1200] [], rfl, rfl, rfl, rfl, rfl, rfl, by decide, by decide, by decide, by decide, by decide⟩

/-- max_dur exactly reached, with the OFF test false at its boundary. -/
theorem witness_LongEpisodesAreCapped :
    ∃ u : TriggerUnit, (unitState u false false).NothingBegun ∧ u = (unitState u false false).units.get .b0
      ∧ (unitState u false false).owed.units.get .b0 = true ∧ (unitState u false false).owed.gapRun = false
      ∧ (unitState u false false).newestCal = false ∧ u.state = .declared ∧ u.tOn = some 744
      ∧ 16 * u.sta ≥ u.profile.off * max (u.frozenLta.getD u.lta) (256 * u.profile.ltaFloor)
      ∧ u.profile.maxDur ≤ (1000 - 744 : Index).toNat ∧ u.staged = none :=
  ⟨{ declaredUnit 24576 744 with profile := { unit0.profile with maxDur := 256 } }, nothing_begun_unit _ _ _, rfl, rfl,
    rfl, by decide +kernel, rfl, rfl, by decide +kernel, by decide, rfl⟩

/-! ### Witnesses: the Onset Refiner -/

/-- A queue of five with requests of the same deadline before and of a later one after, and a queue of six. -/
theorem witness_HandOversEnterByDeadlineOrAreShed :
    ∃ (s : State) (before after : List Request),
      s.refiner.queue = before ++ after ∧ s.refiner.queue.length < 6
      ∧ (∀ r ∈ before, earlier (request 1800 1200).deadline r.deadline = false)
      ∧ (∀ r, after.head? = some r → earlier (request 1800 1200).deadline r.deadline = true)
      ∧ before ≠ [] ∧ after ≠ [] ∧ 6 ≤ (sixQueued unit0).refiner.queue.length := by
  refine ⟨laneState (Lanes.all .free) (List.replicate 4 (request 1800 1200) ++ [request 1801 1200]) [],
    List.replicate 4 (request 1800 1200), [request 1801 1200], rfl, by decide, fun r h => ?_, fun r h => ?_, by decide,
    by decide, by decide⟩
  · rw [(List.mem_replicate.1 h).2]; decide
  · cases h; decide

/-- A launch into lane 1 with lane 0 taken, the same with a history that withholds it, and a head whose deadline is
the newest index. -/
theorem witness_LaunchesTakeTheHead :
    ∀ (history : List Index) (deadline : Index),
      (history = [950, 950] ∨ history = [950, 950, 950]) → (deadline = 1001 ∨ deadline = 1000) →
      ∃ s, s = laneState { Lanes.all .free with l0 := .waiting (request 1700 1100) } [request deadline 999] history
        ∧ s.owed.list = .done ∧ s.owed.refiner = .done ∧ s.ring.newest = some { index := 1000, accepted := 0 }
        ∧ s.refiner.queue = [request deadline 999] ∧ s.settings.core = .running ∧ s.refiner.lanes.get .l1 = .free
        ∧ (∀ k, [LaneId.l0, .l1, .l2, .l3].idxOf k < [LaneId.l0, .l1, .l2, .l3].idxOf .l1 →
            s.refiner.lanes.get k ≠ .free)
        ∧ (deadline = 1001 ↔ deadline ≠ 1000 ∧ earlier deadline 1000 = false)
        ∧ (((s.refiner.history.drop (s.refiner.history.length - s.settings.station.launches)).filter
            fun x => decide ((1000 - x).toNat < s.settings.station.span)).length < s.settings.station.launches
          ↔ history = [950, 950]) := by
  rintro history deadline (rfl | rfl) (rfl | rfl) <;>
    refine ⟨_, rfl, rfl, rfl, rfl, rfl, rfl, rfl, fun k h => ?_, by decide, by decide +kernel⟩ <;>
    cases k <;> revert h <;> decide

/-- The four conditions in which the examination changes nothing. -/
theorem witness_LaunchesTakeTheHead_nothing :
    State.reset.refiner.queue = [] ∧ State.reset.settings.core = .stopped ∧ State.reset.ring.newest = none
    ∧ ∀ l, (laneState (Lanes.all (.waiting (request 1700 1100))) [] []).refiner.lanes.get l ≠ .free :=
  ⟨rfl, rfl, rfl, fun l h => by cases l <;> cases h⟩

theorem witness_DeadlinesExpireAndScansStart :
    ∃ s u : State, s.ring.newest = some { index := 1000, accepted := 0 }
      ∧ s.owed.list = .done ∧ s.owed.refiner = .expiry ∧ s.RefinerKept ∧ s.list.records.length + 10 < 56
      ∧ s.refiner.lanes.get .l3 = .resolving (request 1000 900) (windowOf 32 7) 4
      ∧ s.InFlight (request 1000 800)
      ∧ u.owed.refiner = .scanStart ∧ u.owed.list = .retire
      ∧ u.refiner.lanes.get .l2 = .waiting (request 1700 1000)
      ∧ ({ s with list := (listState 64 true).list } : State).list.records.length = 64 := by
  refine ⟨{ laneState { Lanes.all .free with l3 := .resolving (request 1000 900) (windowOf 32 7) 4 }
      [request 1000 800] [] with owed := { Owed.nothing with refiner := .expiry } },
    { laneState { Lanes.all .free with l2 := .waiting (request 1700 1000) } [] [] with
      owed := { Owed.nothing with refiner := .scanStart, list := .retire } },
    rfl, rfl, rfl, ⟨fun l => ?_, by decide⟩, by decide, rfl, .inl (by decide +kernel), rfl, rfl, rfl, by decide⟩
  cases l <;> trivial

theorem quiet_lanes (lanes : Lanes Lane) (queue : List Request) (history : List Index) (t : Nat) :
    (laneState lanes queue history).Settled ∧ (laneState lanes queue history).QuietUntil t :=
  ⟨settled_of _ rfl rfl rfl, quiet_without_timers _ _ rfl rfl rfl rfl rfl⟩

/-- A lane's last read, and two lanes of one deadline. -/
theorem witness_ReadGrantsFollowTheArbiter :
    ∃ s, s = laneState
        { Lanes.all .free with
          l1 := .scanning (request 1700 1000) (windowOf 31 7), l2 := .scanning (request 1700 900) [] } [] []
      ∧ s.Settled ∧ s.QuietUntil 0 ∧ 0 = max s.clock.now s.clock.grantFrom ∧ s.clock.now ≤ s.intake.nextSample
      ∧ s.ring.newest.isSome = true
      ∧ s.ring.laneReads + s.ring.fetchReads < 48
      ∧ s.refiner.lanes.get .l1 = .scanning (request 1700 1000) (windowOf 31 7)
      ∧ (windowOf 31 7).length + 1 = ((request 1700 1000).windowEnd - (request 1700 1000).ws).toNat + 1
      ∧ s.ring.laneReads < 40 ∧ (request 1700 1000).deadline = (request 1700 900).deadline
      ∧ [LaneId.l0, .l1, .l2, .l3].idxOf .l1 < [LaneId.l0, .l1, .l2, .l3].idxOf .l2 :=
  ⟨_, rfl, (quiet_lanes _ _ _ 0).1, (quiet_lanes _ _ _ 0).2, rfl, by decide, rfl, by decide, rfl, by decide +kernel,
    by decide, rfl, by decide⟩

/-- Both engines want; the last served is B, or none with B the first to fill; the fetch that ends and the one that
goes on. -/
theorem witness_ReadGrantsFollowTheArbiter_engines :
    ∀ last, last = some Port.b ∨ last = none →
      ∃ s : State, s.Settled ∧ s.QuietUntil 0 ∧ s.ring.newest.isSome = true
        ∧ (s.ports.get .a).engine = .filling (fetchOf 2 0 1) ∧ (s.ports.get .b).engine = .filling (fetchOf 3 0 1)
        ∧ (fetchOf 2 0 1).buffer.length + 1 = (fetchOf 2 0 1).count
        ∧ (fetchOf 3 0 1).buffer.length + 1 < (fetchOf 3 0 1).count
        ∧ s.ring.laneReads + s.ring.fetchReads < 48 ∧ 40 ≤ s.ring.laneReads ∧ s.ring.fetchReads < 8
        ∧ s.ring.lastServed = last ∧ (last = none → s.clock.fillOrder.head? = some .b) := by
  rintro last (rfl | rfl) <;>
    exact ⟨engineState (.filling (fetchOf 2 0 1)) (.filling (fetchOf 3 0 1)) 40 7 _, settled_of _ rfl rfl rfl,
      quiet_without_timers _ _ rfl rfl rfl rfl rfl, rfl, rfl, rfl, by decide, by decide, by decide, by decide,
      by decide, rfl, fun _ => rfl⟩

theorem witness_ReadGrantsFollowTheArbiter_nobody :
    (oneSlot 1000 false).Settled ∧ (oneSlot 1000 false).QuietUntil 0
    ∧ (∀ l, (oneSlot 1000 false).refiner.lanes.get l = .free)
    ∧ (∀ p, ((oneSlot 1000 false).ports.get p).engine = .idle) :=
  ⟨settled_of _ rfl rfl rfl, quiet_without_timers _ _ rfl rfl rfl rfl rfl, fun l => by cases l <;> rfl,
    fun p => by cases p <;> rfl⟩

/-- A resolving lane with a request queued. -/
theorem witness_ResolutionsHandOverRefinedRecords :
    ∃ s : State, s.owed = Owed.nothing
      ∧ s.refiner.lanes.get .l1 = .resolving (request 1700 1000) (windowOf 32 7) 0
      ∧ s.refiner.queue = [request 1800 1200] ∧ (∀ r w k, s.refiner.lanes.get .l0 ≠ .resolving r w k)
      ∧ ((windowOf 32 7).drop (bestCandidate (windowOf 32 7))).take (request 1700 1000).fields.ampLen ≠ [] :=
  ⟨laneState { Lanes.all .free with l1 := .resolving (request 1700 1000) (windowOf 32 7) 0 } [request 1800 1200] [],
    rfl, rfl, rfl, (fun _ _ _ h => by cases h), by decide +kernel⟩

/-! ### Witnesses: the list and the ports -/

/-- A record at the age limit with an attached reader that has not confirmed it. -/
theorem witness_TheListRetiresAndReleases_retire :
    ∃ s : State, s.ring.newest = some { index := 0x80000063, accepted := 0 }
      ∧ s.owed.refiner = .done ∧ s.owed.list = .retire ∧ s.ListKept ∧ s.ReadersKept
      ∧ s.list.records = [recordOf 0 100 true] ∧ ((0x80000063 : Index) - 100).toNat = 2147483647
      ∧ (s.readers.get .a).attached = true ∧ (recordOf 0 100 true).marks.get .a = false := by
  refine ⟨{ oneSlot 0x80000063 false with
      list := { PickList.reset with records := [recordOf 0 100 true], nextSerial := 1 }
      readers := { Ports.all Reader.reset with a := { Reader.reset with attached := true } }
      owed := { Owed.nothing with list := .retire } },
    rfl, rfl, rfl, by unfold State.ListKept; decide +kernel,
    readers_kept_of_nobody _ (fun p => by cases p <;> rfl) ?_, rfl, by decide, rfl, rfl⟩
  intro r h p
  simp_all [recordOf, Ports.all, Ports.get]
  cases p <;> rfl

/-- A slot write at which the list owes its handling and no record is at the age limit. -/
theorem witness_TheListRetiresAndReleases_none :
    ∃ s : State, s.ring.newest = some { index := 0x80000062, accepted := 0 } ∧ s.owed.list = .retire ∧ s.ListKept
      ∧ s.list.records = [recordOf 0 100 true] ∧ ∀ r ∈ s.list.records, ((0x80000062 : Index) - r.key).toNat ≠ 2147483647 := by
  refine ⟨{ oneSlot 0x80000062 false with
      list := { PickList.reset with records := [recordOf 0 100 true], nextSerial := 1 }
      owed := { Owed.nothing with list := .retire } }, rfl, rfl, by unfold State.ListKept; decide +kernel, rfl, ?_⟩
  intro r h
  simp_all [recordOf]

/-- A held record whose holdback has just passed: its key plus 800 is the newest index. -/
theorem witness_TheListRetiresAndReleases_release :
    ∃ s : State, s.ring.newest = some { index := 1000, accepted := 0 }
      ∧ s.owed.refiner = .done ∧ s.owed.list = .release ∧ s.ListKept ∧ s.ReadersKept
      ∧ s.list.records = [recordOf 0 200 false]
      ∧ (200 : Index) + BitVec.ofNat 32 s.list.holdback = 1000 := by
  refine ⟨{ oneSlot 1000 false with
      list := { PickList.reset with records := [recordOf 0 200 false], nextSerial := 1 }
      owed := { Owed.nothing with list := .release } },
    rfl, rfl, rfl, by unfold State.ListKept; decide +kernel,
    readers_kept_of_nobody _ (fun p => by cases p <;> rfl) ?_, rfl, by decide⟩
  intro r h p
  simp_all [recordOf, Ports.all, Ports.get]
  cases p <;> rfl

theorem witness_IdentifyReturnsTheHighestNotice :
    ∃ s : State, s.PortsOpen ∧ s.Noticed .nearFull .a ∧ noticeIn .nearFull (s.ports.get .a).mask = true
      ∧ s.Noticed .intake .a ∧ noticeIn .intake (s.ports.get .a).mask = false
      ∧ Notice.nearFull.number ≤ Notice.core.number ∧ ∀ n, ¬ s.Noticed n .b := by
  refine ⟨{ State.reset with
      ports := { State.reset.ports with a := { PortInterface.reset with notices := 0xA4, mask := 0x7F } } },
    ports_open_of _ rfl rfl, by unfold State.Noticed; decide, by decide, by unfold State.Noticed; decide, by decide,
    by decide, fun n => ?_⟩
  cases n <;> unfold State.Noticed <;> decide

theorem witness_ReadingRequestsAnswerWhatStands :
    State.reset.PortsOpen ∧ (2 : Byte).toNat = Band.number .b2 ∧ 3 ≤ (3 : Byte).toNat :=
  ⟨ports_open_of _ rfl rfl, rfl, by decide⟩

theorem witness_RequestsThatNameNothingChangeNothing :
    State.reset.PortsOpen ∧ (bitsOfBytes (List.replicate 38 0) ++ List.replicate 7 true).length < 312
    ∧ (List.replicate 15 true).length < 16 ∧ (List.replicate 7 true).length < 8 ∧ (0x00 : Byte) ≠ 0x01
    ∧ (List.replicate 55 true).length < 56 ∧ (List.replicate 111 true).length < 112
    ∧ (0x60 : Byte) ∉ ([0x01, 0x02, 0x10, 0x11, 0x12, 0x13, 0x14, 0x20, 0x21, 0x30, 0x31, 0x32, 0x33, 0x34, 0x40, 0x41,
        0x50, 0x5A] : List Byte) :=
  ⟨ports_open_of _ rfl rfl, by decide +kernel, by decide, by decide, by decide, by decide, by decide, by decide⟩

theorem open_reader (n : Nat) (ds : List Serial) : (readerState n ds).PortsOpen := ports_open_of _ rfl rfl

theorem witness_AttachesMarkTheRecords :
    (readerState 3 [0, 1]).PortsOpen ∧ ((readerState 3 [0, 1]).list.records.filter fun r => r.released).length = 3 :=
  ⟨open_reader _ _, by decide +kernel⟩

theorem witness_DetachAndPortResetClearTheReader :
    (readerState 3 [0, 1]).PortsOpen ∧ ((readerState 3 [0, 1]).readers.get .a).attached = true
    ∧ ((readerState 3 [0, 1]).readers.get .b).attached = false := ⟨open_reader _ _, rfl, rfl⟩

/-- A full sequence, none available, and the first available after one delivered. -/
theorem witness_TakeDeliversTheFirstAvailable :
    (readerState 20 ((List.range 16).map (BitVec.ofNat 16))).PortsOpen
    ∧ 16 ≤ ((readerState 20 ((List.range 16).map (BitVec.ofNat 16))).readers.get .a).delivered.length
    ∧ (∀ r ∈ (readerState 1 [0]).list.records, ¬ (readerState 1 [0]).Available .a r)
    ∧ (readerState 3 [0]).list.records = [recordOf 0 100 true] ++ recordOf 1 101 true :: [recordOf 2 102 true]
    ∧ (readerState 3 [0]).Available .a (recordOf 1 101 true)
    ∧ ¬ (readerState 3 [0]).Available .a (recordOf 0 100 true)
    ∧ (readerState 3 [0]).ListKept ∧ 1 + 1 = (readerState 3 [0]).backlog .a := by
  refine ⟨open_reader _ _, by decide +kernel, ?_, by decide +kernel, ?_, ?_, ?_, by decide +kernel⟩ <;>
    first
      | (unfold State.Available; decide +kernel)
      | (unfold State.ListKept; decide +kernel)

theorem kept_reader_state : (readerState 3 [0, 1, 2]).ListKept ∧ (readerState 3 [0, 1, 2]).ReadersKept := by
  refine ⟨by unfold State.ListKept; decide +kernel, fun p => ?_⟩
  cases p
  · refine ⟨(fun h => by cases h), by decide, by decide, fun v h => ?_⟩
    have hv : v = 0 ∨ v = 1 ∨ v = 2 := by simpa [readerState, Ports.get] using h
    rcases hv with rfl | rfl | rfl <;> decide +kernel
  · exact ⟨fun _ => ⟨rfl, by decide +kernel⟩, by decide, by decide, fun v h => by cases h⟩

theorem witness_ConfirmAndRewindMoveTheSequence :
    (readerState 3 [0, 1, 2]).PortsOpen ∧ ((readerState 3 [0, 1, 2]).readers.get .a).attached = true
    ∧ ((readerState 3 [0, 1, 2]).readers.get .a).delivered = [0] ++ ((0x00 : Byte) ++ (0x01 : Byte)) :: [2]
    ∧ (0x00 : Byte) ++ (0x01 : Byte) ∉ ([0] : List Serial)
    ∧ (0x00 : Byte) ++ (0x03 : Byte) ∉ ((readerState 3 [0, 1, 2]).readers.get .a).delivered
    ∧ (readerState 3 [0, 1, 2]).ListKept ∧ (readerState 3 [0, 1, 2]).ReadersKept :=
  ⟨open_reader _ _, rfl, by decide, by decide, by decide, kept_reader_state⟩

/-- The held index, one before it, one after it, and an end one past it. -/
theorem witness_FetchesAreCheckedAndBegun :
    (oneSlot 1000 false).PortsOpen
    ∧ (0 : Byte) ++ (0 : Byte) ++ (0x03 : Byte) ++ (0xE8 : Byte) = (1000 : Index)
    ∧ (1000 - 1000 : Index).toNat < (oneSlot 1000 false).ring.written
    ∧ (oneSlot 1000 false).ring.written ≤ (1000 - 999 : Index).toNat ∧ earlier (1000 : Index) 999 = false
    ∧ (oneSlot 1000 false).ring.written ≤ (1000 - 1001 : Index).toNat ∧ earlier (1000 : Index) 1001 = true
    ∧ earlier (1000 : Index) (1000 + 1 - 1) = false ∧ earlier (1000 : Index) (1000 + 2 - 1) = true
    ∧ State.reset.ring.newest = none :=
  ⟨ports_open_of _ rfl rfl, by decide, by decide, by decide, by decide, by decide, by decide, by decide, by decide, rfl⟩

/-- A last return of exactly 16 slots, one with 17 to go, and a fetch still filling. -/
theorem witness_ReadFetchReturnsTheNextSlots :
    ∀ e, e = .ready (fetchOf 16 0 16) ∨ e = .ready (fetchOf 17 0 17) ∨ e = .filling (fetchOf 3 0 2) →
      (engineState e .idle 0 0 none).PortsOpen ∧ (engineState e .idle 0 0 none).EnginesKept
      ∧ ((engineState e .idle 0 0 none).ports.get .a).engine = e := by
  rintro e (rfl | rfl | rfl) <;>
    refine ⟨ports_open_of _ rfl rfl, fun p => ?_, rfl⟩ <;> cases p <;> trivial

/-- A band in OFF, a band in PENDING, and an IDLE band with and without a changed shift. -/
theorem witness_SetProfileAppliesOrStages :
    State.reset.PortsOpen ∧ State.reset.owed = Owed.nothing ∧ (∀ x ∈ profileWords (Profile.default .b0), x < 65536)
    ∧ (0 : Byte).toNat = Band.number .b0 ∧ 3 ≤ (3 : Byte).toNat
    ∧ (State.reset.units.get .b0).state = .off ∧ (pendingUnit 0).state = .pending
    ∧ ({ unit0 with state := .idle } : TriggerUnit).profile.fastShift = (clampProfile (Profile.default .b0)).fastShift
    ∧ ({ unit0 with state := .idle } : TriggerUnit).profile.fastShift ≠ (clampProfile (Profile.default .b1)).fastShift := by
  refine ⟨ports_open_of _ rfl rfl, rfl, by decide, by decide, by decide, rfl, rfl, by decide, by decide⟩

/-- Accepted with the divider kept and changed, in LOST and in RUNNING; and BUSY. -/
theorem witness_SetStationIsAcceptedOrBusy :
    (timerState .running .link).PortsOpen ∧ (timerState .running .link).Settled
    ∧ (∀ x ∈ stationWords Station.default, x < 65536)
    ∧ (timerState .running .link).settings.core = .stopped
    ∧ clampStation { Station.default with linkDivider := 4 } =
        { (timerState .running .link).settings.station with linkDivider := 4 }
    ∧ (4 : Nat) ≠ (timerState .running .link).settings.station.linkDivider
    ∧ (timerState .running .link).intake.link = .running
    ∧ (timerState .running .link).intake.lastGood = some quietReading
    ∧ (timerState .lost .gapSlot).Settled ∧ (timerState .lost .gapSlot).intake.link ≠ .running
    ∧ (laneState (Lanes.all .free) [] []).settings.core = .running
    ∧ clampStation { Station.default with holdback := 0 } ≠
        { (laneState (Lanes.all .free) [] []).settings.station with linkDivider := 3 } :=
  ⟨ports_open_of _ rfl rfl, settled_of _ rfl rfl rfl, by decide, rfl, by decide, by decide, rfl, rfl,
    settled_of _ rfl rfl rfl, by decide, rfl, by decide⟩

theorem witness_SetPortTakesEffectAtOnce :
    (readerState 3 []).PortsOpen
    ∧ ({ (readerState 3 []).readers.get .a with threshold := max 1 (min 64 (3 : Byte).toNat) } : Reader).armed = true
    ∧ max 1 (min 64 (3 : Byte).toNat) ≤ (readerState 3 []).backlog .a :=
  ⟨open_reader _ _, rfl, by decide +kernel⟩

theorem witness_StartAndStopSetTheCore :
    State.reset.PortsOpen ∧ State.reset.settings.core = .stopped
    ∧ (laneState (Lanes.all .free) [request 1700 1100] [900]).PortsOpen
    ∧ (laneState (Lanes.all .free) [request 1700 1100] [900]).owed = Owed.nothing
    ∧ (laneState (Lanes.all .free) [request 1700 1100] [900]).settings.core = .running :=
  ⟨ports_open_of _ rfl rfl, rfl, ports_open_of _ rfl rfl, rfl, rfl⟩

end Sys2Proof.Tests
end

section
/-! The refiner's arithmetic: the logarithm by octaves (R3), the two sides of a window and their mean energies
(R105), and the best candidate as the place where the list of scores splits (R106). -/

namespace Sys2Proof.Machine

/-! ### The logarithm (R3) -/

@[simp] theorem lg_zero : lg 0 = 0 := rfl

/-- Within the octave of 2^p the mantissa is linear. -/
theorem lg_of_octave {p v : Nat} (hlo : 2 ^ p ≤ v) (hhi : v < 2 ^ (p + 1)) :
    lg v = 256 * p + 256 * (v - 2 ^ p) / 2 ^ p := by
  have hv : v ≠ 0 := by have := Nat.two_pow_pos p; omega
  have hp : Nat.log2 v = p := (Nat.log2_eq_iff hv).2 ⟨hlo, hhi⟩
  rw [lg, if_neg hv, hp]

theorem exists_octave {v : Nat} (hv : v ≠ 0) : ∃ p, 2 ^ p ≤ v ∧ v < 2 ^ (p + 1) :=
  ⟨Nat.log2 v, (Nat.log2_eq_iff hv).1 rfl⟩

/-- One octave is 256 lg units. -/
theorem lg_two_mul {v : Nat} (hv : v ≠ 0) : lg (2 * v) = lg v + 256 := by
  obtain ⟨p, hlo, hhi⟩ := exists_octave hv
  have hmantissa : 256 * (2 * v - 2 ^ (p + 1)) / 2 ^ (p + 1) = 256 * (v - 2 ^ p) / 2 ^ p := by
    rw [pow_succ', ← Nat.mul_sub, Nat.mul_left_comm, Nat.mul_div_mul_left _ _ Nat.two_pos]
  rw [lg_of_octave hlo hhi, lg_of_octave (p := p + 1) (by omega) (by omega), hmantissa]
  omega

/-- The n octaves below 2^n take 256 lg units each. -/
theorem lg_lt_of_lt_two_pow {n v : Nat} (hn : 0 < n) (h : v < 2 ^ n) : lg v < 256 * n := by
  rcases eq_or_ne v 0 with rfl | hv
  · simpa using hn
  · obtain ⟨p, hlo, hhi⟩ := exists_octave hv
    have hp : p < n := (Nat.pow_lt_pow_iff_right Nat.one_lt_two).1 (hlo.trans_lt h)
    have hmantissa : 256 * (v - 2 ^ p) / 2 ^ p < 256 := by
      rw [Nat.div_lt_iff_lt_mul (Nat.two_pow_pos p)]
      omega
    rw [lg_of_octave hlo hhi]
    omega

theorem lg_le {v : Nat} (h : v < 2 ^ 32) : lg v ≤ 8191 :=
  Nat.le_of_lt_succ (lg_lt_of_lt_two_pow (n := 32) (by decide) h)

/-! ### Mean energies and scores (R105, R106) -/

theorem sumEnergy_append (u v : List WindowSlot) : sumEnergy (u ++ v) = sumEnergy u + sumEnergy v := by
  simp [sumEnergy]

theorem sumEnergy_drop (w : List WindowSlot) (k : Nat) :
    sumEnergy (w.drop k) = sumEnergy w - sumEnergy (w.take k) := by
  have h := sumEnergy_append (w.take k) (w.drop k)
  rw [List.take_append_drop] at h
  omega

theorem sumEnergy_le (w : List WindowSlot) : sumEnergy w ≤ w.length * (2 ^ 32 - 1) := by
  have h := List.sum_le_card_nsmul (w.map fun x => x.energy.toNat) (2 ^ 32 - 1) (by
    intro e he
    obtain ⟨x, -, rfl⟩ := List.mem_map.1 he
    exact Nat.le_pred_of_lt x.energy.isLt)
  simpa [sumEnergy] using h

/-- A mean of energies is an energy, so its lg is within R3's range. -/
theorem lg_mean_le (w : List WindowSlot) : lg (sumEnergy w / w.length) ≤ 8191 := by
  have hmean : sumEnergy w / w.length ≤ 2 ^ 32 - 1 := Nat.div_le_of_le_mul (sumEnergy_le w)
  exact lg_le (by omega)

theorem score_eq_means (w : List WindowSlot) (k : Nat) :
    score w k = k * lg (sumEnergy (w.take k) / k)
      + (w.length - k) * lg (sumEnergy (w.drop k) / (w.length - k)) := by
  rw [score, sumEnergy_drop]

/-- Each slot of the window adds at most one mean's lg to the score. -/
theorem score_le {w : List WindowSlot} {k : Nat} (hk : k ≤ w.length) : score w k ≤ w.length * 8191 := by
  have hfirst := lg_mean_le (w.take k)
  have hsecond := lg_mean_le (w.drop k)
  rw [List.length_take_of_le hk] at hfirst
  rw [List.length_drop] at hsecond
  calc score w k
      ≤ k * 8191 + (w.length - k) * 8191 := by
        rw [score_eq_means]
        exact Nat.add_le_add (Nat.mul_le_mul_left _ hfirst) (Nat.mul_le_mul_left _ hsecond)
    _ = w.length * 8191 := by omega

/-! ### The best candidate (R106) -/

theorem mem_candidates {l k : Nat} : k ∈ candidates l ↔ 8 ≤ k ∧ k ≤ l - 8 ∧ 16 ≤ l := by
  simp only [candidates, List.mem_map, List.mem_range]
  constructor
  · rintro ⟨i, hi, rfl⟩
    omega
  · rintro ⟨hlo, hhi, hl⟩
    exact ⟨k - 8, by omega, by omega⟩

theorem candidates_ascending (l : Nat) : (candidates l).Pairwise (· < ·) :=
  List.pairwise_lt_range.map _ fun _ _ h => Nat.add_lt_add_right h 8

/-- The chosen entry splits the list: every entry before it scores more, and none after it scores less. -/
theorem exists_leastScore_split {xs : List (Nat × Nat)} (hne : xs ≠ []) :
    ∃ before x after, xs = before ++ x :: after ∧ leastScore xs = some x
      ∧ (∀ y ∈ before, x.2 < y.2) ∧ ∀ y ∈ after, x.2 ≤ y.2 := by
  induction xs with
  | nil => contradiction
  | cons a more ih =>
    rcases eq_or_ne more [] with rfl | hmore
    · exact ⟨[], a, [], rfl, rfl, by simp, by simp⟩
    · obtain ⟨before, x, after, rfl, hx, hbefore, hafter⟩ := ih hmore
      by_cases hlt : x.2 < a.2
      · exact ⟨a :: before, x, after, rfl, by simp [leastScore, hx, hlt],
          List.forall_mem_cons.2 ⟨hlt, hbefore⟩, hafter⟩
      · refine ⟨[], a, before ++ x :: after, rfl, by simp [leastScore, hx, hlt], by simp, ?_⟩
        have hle : a.2 ≤ x.2 := Nat.le_of_not_lt hlt
        exact List.forall_mem_append.2 ⟨fun y hy => hle.trans (hbefore y hy).le,
          List.forall_mem_cons.2 ⟨hle, fun y hy => hle.trans (hafter y hy)⟩⟩

/-- k* splits the candidates as its entry splits their scores. -/
theorem candidates_split_best {w : List WindowSlot} (hw : 16 ≤ w.length) :
    ∃ before after, candidates w.length = before ++ bestCandidate w :: after
      ∧ (∀ k ∈ before, score w (bestCandidate w) < score w k)
      ∧ ∀ k ∈ after, score w (bestCandidate w) ≤ score w k := by
  have hfirst : 8 ∈ candidates w.length := mem_candidates.2 ⟨le_rfl, by omega, hw⟩
  have hne : scores w ≠ [] := List.ne_nil_of_mem (List.mem_map_of_mem hfirst)
  obtain ⟨_, x, _, hsplit, hx, hbefore, hafter⟩ := exists_leastScore_split hne
  obtain ⟨before, rest, hcand, rfl, hrest⟩ := List.map_eq_append_iff.1 hsplit
  obtain ⟨best, after, rfl, rfl, rfl⟩ := List.map_eq_cons_iff.1 hrest
  have hbest : bestCandidate w = best := by simp [bestCandidate, bestScored, hx]
  subst hbest
  exact ⟨before, after, hcand, fun k hk => hbefore _ (List.mem_map_of_mem hk),
    fun k hk => hafter _ (List.mem_map_of_mem hk)⟩

theorem bestCandidate_mem {w : List WindowSlot} (hw : 16 ≤ w.length) :
    bestCandidate w ∈ candidates w.length := by
  obtain ⟨before, after, hsplit, -, -⟩ := candidates_split_best hw
  simp [hsplit]

/-- A candidate before k* scores more, and one after it is larger, so k* is the smallest of least score. -/
theorem bestCandidate_least {w : List WindowSlot} {k : Nat} (hw : 16 ≤ w.length) (hk : k ∈ candidates w.length) :
    score w (bestCandidate w) ≤ score w k
      ∧ (score w k = score w (bestCandidate w) → bestCandidate w ≤ k) := by
  obtain ⟨before, after, hsplit, hbefore, hafter⟩ := candidates_split_best hw
  have hascending := candidates_ascending w.length
  rw [hsplit] at hk hascending
  rcases List.mem_append.1 hk with hkb | hka
  · have hmore := hbefore k hkb
    exact ⟨hmore.le, fun heq => absurd heq hmore.ne'⟩
  · rcases List.mem_cons.1 hka with rfl | hka
    · exact ⟨le_rfl, fun _ => le_rfl⟩
    · have hlater : bestCandidate w < k :=
        List.rel_of_pairwise_cons (List.pairwise_append.1 hascending).2.1 hka
      exact ⟨hafter k hka, fun _ => hlater.le⟩

/-- Settles O17: the logarithm octave by octave, each side of the score as a mean of energies, and k* as the place
where the ascending list of candidates splits at its first least score. -/
theorem bestCandidateIsTheEarliestLeast : Obligations.BestCandidateIsTheEarliestLeast := by
  unfold Obligations.BestCandidateIsTheEarliestLeast
  refine ⟨⟨lg_zero, fun _ _ => lg_of_octave, fun v hv => lg_two_mul (Nat.ne_of_gt hv), fun _ => lg_le, ?_⟩,
    fun w k _ _ => score_eq_means w k, ?_, ?_⟩
  · exact lg_of_octave (p := 9) (by decide) (by decide)
  · intro w k hw hlo hhi
    calc score w k ≤ w.length * 8191 := score_le (by omega)
      _ ≤ 512 * 8191 := Nat.mul_le_mul_right _ hw
      _ = 4193792 := rfl
  · intro r w hw
    obtain ⟨hlo, hhi, -⟩ := mem_candidates.1 (bestCandidate_mem hw)
    exact ⟨hlo, hhi, fun k hklo hkhi => bestCandidate_least hw (mem_candidates.2 ⟨hklo, hkhi, hw⟩), rfl⟩

end Sys2Proof.Machine
end

section
/-! The slot write as every command that writes a slot meets it (R13, R34, R35): what it makes of Frame Intake, of the
ring and of the clock. -/

namespace Sys2Proof.Machine

/-- A slot write is the write itself between two operations that settle: what comes before it (R95) and the handlings
that are no row of the table. -/
theorem writeSlot_settles (k : SlotKind) (r : Reading) (s : State) :
    ∃ u, OnlySettled s u ∧ OnlySettled (writeCore k r u) (writeSlot k r s) :=
  ⟨_, (settleOwed_frame s).trans (completeOverdue_frame _).toOnlySettled, takePlain_frame _⟩

@[simp] theorem writeSlot_intake (k : SlotKind) (r : Reading) (s : State) :
    (writeSlot k r s).intake =
      { s.intake with nextIndex := s.intake.nextIndex + 1, gapRun := gapRunAfter k s.intake.gapRun } := by
  obtain ⟨u, hu, hw⟩ := writeSlot_settles k r s
  rw [hw.intake, writeCore, hu.intake]

@[simp] theorem writeSlot_clock (k : SlotKind) (r : Reading) (s : State) :
    (writeSlot k r s).clock = { s.clock with grantFrom := max s.clock.grantFrom (s.clock.now + 1) } := by
  obtain ⟨u, hu, hw⟩ := writeSlot_settles k r s
  rw [hw.clock, writeCore, hu.clock]

theorem writeSlot_now (k : SlotKind) (r : Reading) (s : State) : (writeSlot k r s).clock.now = s.clock.now := by
  rw [writeSlot_clock]

@[simp] theorem writeSlot_settings (k : SlotKind) (r : Reading) (s : State) :
    (writeSlot k r s).settings = s.settings := (writeSlot_frame k r s).settings

@[simp] theorem completeSlot_reading (core : CoreState) (f : FilterBank) (r : Reading) (damaged gap : Bool) :
    (completeSlot core f r damaged gap).reading = r := by cases core <;> rfl

@[simp] theorem completeSlot_damaged (core : CoreState) (f : FilterBank) (r : Reading) (damaged gap : Bool) :
    (completeSlot core f r damaged gap).damaged = damaged := by cases core <;> rfl

@[simp] theorem completeSlot_gap (core : CoreState) (f : FilterBank) (r : Reading) (damaged gap : Bool) :
    (completeSlot core f r damaged gap).gap = gap := by cases core <;> rfl

/-- The ring takes the slot at the next index, accepted now, with the reading and the flags given (R11, R12, R35). -/
theorem writeSlot_ring (k : SlotKind) (r : Reading) (s : State) :
    ∃ v : Slot, (v.reading = r ∧ v.damaged = decide (k = .damaged) ∧ v.gap = decide (k = .gap))
      ∧ (writeSlot k r s).ring = s.ring.write s.intake.nextIndex s.clock.now v := by
  obtain ⟨u, hu, hw⟩ := writeSlot_settles k r s
  rw [hw.ring, writeCore, hu.intake, hu.ring, hu.clock]
  exact ⟨_, ⟨completeSlot_reading .., completeSlot_damaged .., completeSlot_gap ..⟩, rfl⟩

/-- The slot written is the newest and reads as it was formed (R11, R12, R35). -/
theorem writeSlot_wroteSlot (k : SlotKind) (r : Reading) (s : State) :
    (writeSlot k r s).WroteSlot s.intake.nextIndex s.clock.now r (decide (k = .damaged)) (decide (k = .gap)) := by
  obtain ⟨v, hv, hring⟩ := writeSlot_ring k r s
  rw [State.WroteSlot, hring]
  exact ⟨rfl, v, Ring.read_write_same _ _ _ v, hv⟩

theorem writeSlot_newestOr (k : SlotKind) (r : Reading) (s : State) :
    (writeSlot k r s).newestOr = s.intake.nextIndex := by
  rw [State.newestOr, (writeSlot_wroteSlot k r s).1]
  rfl

/-! ### The parts of what is taken within the command -/

/-- The units' plain cases, in the order of the units. -/
def takeUnits (s : State) : State := unitPlain .b2 (unitPlain .b1 (unitPlain .b0 s))

/-- The refiner's handling, where nothing is due (R96). -/
def takeRefiner (s : State) : State := if s.refinerIdle then refinerFinish s else s

/-- The list's handling, where nothing is due (R125). -/
def takeList (s : State) : State := if s.listIdle then listFinish s else s

/-- The Time Mark Unit's handling, where nothing is due (R27, R28). -/
def takeTiming (s : State) : State := if s.watchDue || s.holdoverDue then s else timingFinish s

theorem takePlain_eq (s : State) : takePlain s = takeTiming (takeList (takeRefiner (takeUnits s))) := rfl

theorem finishBegun_eq (s : State) : finishBegun s = finishList (finishRefiner s) := rfl

theorem State.lastReading_of_lastGood {s : State} {last : Reading} (h : s.intake.lastGood = some last) :
    s.lastReading = last := by
  simp [State.lastReading, h]

theorem writeGap_of_lastGood {s : State} {last : Reading} (h : s.intake.lastGood = some last) :
    writeGap s = writeSlot .gap last s := by
  rw [writeGap, State.lastReading_of_lastGood h]

end Sys2Proof.Machine
end

section
/-! The ring through a slot write (R35, R36, R40): the positions it has, in order, and what a read leaves of the
budget. -/

namespace Sys2Proof.Machine

/-- A position not yet written joins the end, as the positions written rise (R35). -/
theorem writeCell_positions_new (pos : Nat) (v : Slot) (cells : List (Nat × Slot))
    (h : ∀ q ∈ cells.map Prod.fst, q < pos) :
    (writeCell pos v cells).map Prod.fst = cells.map Prod.fst ++ [pos] := by
  induction cells with
  | nil => rfl
  | cons c more ih =>
    obtain ⟨q, w⟩ := c
    obtain ⟨hq, hmore⟩ : q < pos ∧ ∀ p ∈ more.map Prod.fst, p < pos := List.forall_mem_cons.1 h
    simp [writeCell, Nat.not_lt_of_gt hq, Nat.ne_of_gt hq, ih hmore]

/-- A position written before is written over in its place (R35). -/
theorem writeCell_positions_old (pos : Nat) (v : Slot) {cells : List (Nat × Slot)} (hwf : Cells.wf cells)
    (h : pos ∈ cells.map Prod.fst) : (writeCell pos v cells).map Prod.fst = cells.map Prod.fst := by
  induction cells with
  | nil => simp at h
  | cons c more ih =>
    obtain ⟨q, w⟩ := c
    obtain ⟨hq, hmore⟩ := List.pairwise_cons.1 hwf
    rcases List.mem_cons.1 h with heq | hpos
    · obtain rfl : pos = q := heq
      simp [writeCell]
    · have hlt : q < pos := hq pos hpos
      simp [writeCell, Nat.not_lt_of_gt hlt, Nat.ne_of_gt hlt, ih hmore hpos]

theorem Cells.wf_of_range {cells : List (Nat × Slot)} {n : Nat} (h : cells.map Prod.fst = List.range n) :
    Cells.wf cells := by
  rw [Cells.wf, h]
  exact List.pairwise_lt_range

theorem ringPosition_lt (i : Index) : ringPosition i < Config.ringDepth := Nat.mod_lt _ (by decide)

theorem ringPosition_ofNat {w : Nat} (h : w < Config.ringDepth) : ringPosition (BitVec.ofNat 32 w) = w := by
  simp only [ringPosition, Config.ringDepth, BitVec.toNat_ofNat] at *
  omega

/-- A write keeps the positions 0 … w − 1 in order: it adds position w while one is missing, and afterwards writes one
over (R35). -/
theorem writeCell_range {cells : List (Nat × Slot)} {w : Nat} {i : Index} (v : Slot)
    (hcells : cells.map Prod.fst = List.range w) (hw : w ≤ Config.ringDepth)
    (hi : w < Config.ringDepth → i = BitVec.ofNat 32 w) :
    (writeCell (ringPosition i) v cells).map Prod.fst = List.range (min (w + 1) Config.ringDepth) := by
  rcases Nat.lt_or_eq_of_le hw with hlt | rfl
  · rw [hi hlt, ringPosition_ofNat hlt, writeCell_positions_new w v cells (by simp [hcells]), hcells,
      Nat.min_eq_left hlt, List.range_succ]
  · have hmem : ringPosition i ∈ cells.map Prod.fst := by
      rw [hcells]
      exact List.mem_range.2 (ringPosition_lt i)
    rw [writeCell_positions_old _ v (Cells.wf_of_range hcells) hmem, hcells]
    rfl

theorem State.RingKept.of_same {s t : State} (h : s.RingKept) (hring : t.ring = s.ring)
    (hnext : t.intake.nextIndex = s.intake.nextIndex) : t.RingKept := by
  unfold State.RingKept
  rw [hring, hnext]
  exact h

/-- A slot write at the next index keeps the ring (R13, R35, R36, R40). -/
theorem State.RingKept.of_write {s t : State} {accepted : Nat} {v : Slot} (h : s.RingKept)
    (hring : t.ring = s.ring.write s.intake.nextIndex accepted v)
    (hnext : t.intake.nextIndex = s.intake.nextIndex + 1) : t.RingKept := by
  obtain ⟨hcells, hdepth, hindex, -, -⟩ := h
  unfold State.RingKept
  rw [hring, hnext]
  refine ⟨writeCell_range v hcells hdepth hindex, Nat.min_le_right _ _, fun hlt => ?_, ?_, Nat.zero_le _⟩
  · have hw : s.ring.written + 1 < Config.ringDepth := (min_lt_iff.1 hlt).resolve_right (Nat.lt_irrefl _)
    show _ = BitVec.ofNat 32 (min (s.ring.written + 1) Config.ringDepth)
    rw [Nat.min_eq_left hw.le, hindex (Nat.lt_of_succ_lt hw), BitVec.ofNat_add]
    rfl
  · have hw : min (s.ring.written + 1) Config.ringDepth ≠ 0 := by simp [Config.ringDepth]
    show some s.intake.nextIndex = if min (s.ring.written + 1) Config.ringDepth = 0 then none else _
    rw [if_neg hw, BitVec.add_sub_cancel]

theorem writeSlot_ringKept (k : SlotKind) (r : Reading) {s : State} (h : s.RingKept) :
    (writeSlot k r s).RingKept := by
  obtain ⟨v, -, hring⟩ := writeSlot_ring k r s
  exact h.of_write hring (by simp)

/-- Somebody is eligible only while the interval's budget is not spent (R40). -/
theorem State.grantee_budget {s : State} {g : Grantee} (h : s.grantee = some g) :
    s.ring.laneReads + s.ring.fetchReads < Config.intervalBudget := by
  unfold State.grantee at h
  split at h
  · rename_i hb
    exact hb.2
  · cases h

end Sys2Proof.Machine
end

section
/-! What the stream of slots keeps: a condition on Frame Intake, the ring and the instant that survives each of the few
things the part does to them survives every step. -/

namespace Sys2Proof.Machine

/-! ### What leaves the stream alone -/

/-- Frame Intake, the ring and the instant are the same in two states. -/
structure SameStream (s t : State) : Prop where
  intake : t.intake = s.intake
  ring : t.ring = s.ring
  now : t.clock.now = s.clock.now

theorem SameStream.refl (s : State) : SameStream s s := ⟨rfl, rfl, rfl⟩

theorem SameStream.trans {s t u : State} (h : SameStream s t) (g : SameStream t u) : SameStream s u :=
  ⟨g.intake.trans h.intake, g.ring.trans h.ring, g.now.trans h.now⟩

theorem OnlySettled.sameStream {s t : State} (h : OnlySettled s t) : SameStream s t :=
  ⟨h.intake, h.ring, by rw [h.clock]⟩

theorem OnlyRecords.sameStream {s t : State} (h : OnlyRecords s t) : SameStream s t := h.toOnlySettled.sameStream

theorem OnlyRefined.sameStream {s t : State} (h : OnlyRefined s t) : SameStream s t := h.toOnlySettled.sameStream

theorem setPort_sameStream (p : Port) (i : PortInterface) (s : State) : SameStream s (s.setPort p i) :=
  ⟨rfl, rfl, rfl⟩

theorem setReader_sameStream (p : Port) (r : Reader) (s : State) : SameStream s (s.setReader p r) := ⟨rfl, rfl, rfl⟩

/-! ### What Frame Intake may do of itself (section 1.5) -/

/-- The moves of Frame Intake between two slot writes, time aside. -/
inductive IntakeMove : FrameIntake → FrameIntake → Prop
  | line (f : FrameIntake) (level : Bool) : IntakeMove f { f with line := level }
  | assemble (f : FrameIntake) (a : Assembler) : IntakeMove f { f with assembler := a }
  /-- A good frame outside RUNNING (R14, R18). -/
  | follow (f : FrameIntake) (counter : Byte) (expiry : Nat) (r : Reading) (h : f.link ≠ .running) :
    IntakeMove f { f.follow counter expiry with lastGood := some r }
  /-- A good frame in RUNNING, with its slots in hand (R13, R15). -/
  | hold (f : FrameIntake) (counter : Byte) (expiry : Nat) (x : FrameInHand) (h : f.link = .running) :
    IntakeMove f { f.follow counter expiry with inHand := some x }
  /-- A gap-fill slot of the frame in hand is next (R13). -/
  | fill (f : FrameIntake) (x : FrameInHand) (h : f.inHand.isSome) : IntakeMove f { f with inHand := some x }
  /-- The own slot of the frame in hand is next (R11, R15). -/
  | fillLast (f : FrameIntake) (r : Reading) (h : f.inHand.isSome) :
    IntakeMove f { f with inHand := none, lastGood := some r }
  /-- A damaged frame in RUNNING (R16). -/
  | expect (f : FrameIntake) (h : f.link = .running) :
    IntakeMove f { f with expected := f.expected.map (· + 1) }
  /-- The link enters LOST (R17, R20). -/
  | lose (f : FrameIntake) (expiry : Nat) (h : f.link = .running) (hin : f.inHand = none) :
    IntakeMove f { f with link := .lost, expected := none, linkTimer := none, gapSlotTimer := some expiry }
  | stopLinkTimer (f : FrameIntake) (h : f.link ≠ .running) : IntakeMove f { f with linkTimer := none }
  /-- The gap-slot timer restarts in LOST (R18). -/
  | restartGapSlot (f : FrameIntake) (expiry : Nat) (h : f.link = .lost) :
    IntakeMove f { f with gapSlotTimer := some expiry }
  | stopGapSlot (f : FrameIntake) (h : f.link ≠ .lost) : IntakeMove f { f with gapSlotTimer := none }

/-! ### A read granted -/

theorem grantRead_intake (s : State) : (grantRead s).intake = s.intake := by
  unfold grantRead grantEngine
  dsimp only
  split
  · rfl
  · rfl
  · split
    · split <;> rfl
    all_goals rfl

theorem grantRead_now (s : State) : (grantRead s).clock.now = s.clock.now := by
  unfold grantRead grantEngine
  dsimp only
  split
  · rfl
  · rfl
  · split
    · split <;> rfl
    all_goals rfl

/-- A grant counts one read of the lanes or of the fetch engines, or none; it stores nothing (R38, R40). -/
theorem grantRead_ring (s : State) : ∃ (lanes fetches : Nat) (served : Option Port),
    lanes + fetches ≤ s.ring.laneReads + s.ring.fetchReads + 1
      ∧ (grantRead s).ring =
          { s.ring with laneReads := lanes, fetchReads := fetches, lastServed := served } := by
  unfold grantRead grantEngine
  dsimp only
  split
  · exact ⟨_, _, _, Nat.le_succ _, rfl⟩
  · exact ⟨s.ring.laneReads + 1, _, _, by omega, rfl⟩
  · split
    · split <;> exact ⟨_, s.ring.fetchReads + 1, _, by omega, rfl⟩
    all_goals exact ⟨_, _, _, Nat.le_succ _, rfl⟩

/-! ### The condition and what it survives -/

/-- A condition on Frame Intake, the ring and the instant that a slot write, a move of Frame Intake, the passing of
time, a change of the divider, a grant and a reset keep. -/
structure StreamInvariant (P : State → Prop) : Prop where
  same : ∀ {s t : State}, SameStream s t → P s → P t
  write : ∀ (k : SlotKind) (r : Reading) {s : State}, P s → P (writeSlot k r s)
  move : ∀ {s : State} {f : FrameIntake}, IntakeMove s.intake f → P s → P (s.setIntake f)
  pass : ∀ {s : State} (n now : Nat) (rx : Receiver), now ≤ s.intake.nextSample + n * s.samplePeriod → P s →
    P ((s.setNow (max s.clock.now now)).setIntake (s.afterSamples n rx))
  restart : ∀ {s : State} (n : Nat) (rx : Receiver), P s →
    P (s.setIntake { s.intake with nextSample := s.clock.now + n, receiver := rx, assembler := .hunting })
  grant : ∀ {s : State} {g : Grantee}, s.grantee = some g → P s → P (grantRead s)
  power : ∀ {s : State} (level : Bool), s.intake = { FrameIntake.reset with line := level } → s.ring = Ring.reset →
    s.clock.now = 0 → P s

/-- Up to an instant all samples before it have been taken (R5). -/
theorem State.le_sampled (s : State) (t : Nat) :
    t ≤ s.intake.nextSample + s.samplesBefore t * s.samplePeriod := by
  have h := Nat.lt_div_mul_add (a := t - s.intake.nextSample + s.settings.station.linkDivider)
    (b := s.samplePeriod) (Nat.succ_pos _)
  rw [State.samplesBefore]
  simp only [State.samplePeriod] at h ⊢
  omega

section
variable {P : State → Prop}

/-! ### Slots, frames and timers -/

theorem writeGood_setIntake (r : Reading) (f : FrameIntake) (s : State) :
    writeGood r (s.setIntake f) = writeSlot .good r (s.setIntake { f with lastGood := some r }) := rfl

theorem StreamInvariant.keeps_settleOwed (h : StreamInvariant P) {s : State} (hs : P s) : P (settleOwed s) :=
  h.same (settleOwed_frame s).sameStream hs

theorem StreamInvariant.keeps_intakeRecord (h : StreamInvariant P) (t : IntakeType) {s : State} (hs : P s) :
    P (intakeRecord t s) := h.same (intakeRecord_frame t s).sameStream hs

theorem StreamInvariant.keeps_writeHeld (h : StreamInvariant P) {s : State} (hs : P s) : P (writeHeld s) := by
  unfold writeHeld
  split
  · exact hs
  · rename_i hin
    rw [writeGood_setIntake]
    exact h.write .good _ (h.move (.fillLast s.intake _ (by rw [hin]; rfl)) hs)
  · rename_i hin
    exact h.write .gap _ (h.move (.fill s.intake _ (by rw [hin]; rfl)) hs)

theorem StreamInvariant.keeps_writeHeldSlots (h : StreamInvariant P) (n : Nat) {s : State} (hs : P s) :
    P (writeHeldSlots n s) := by
  induction n generalizing s with
  | zero => exact hs
  | succ n ih => exact ih (h.keeps_writeHeld hs)

theorem StreamInvariant.keeps_enterLost (h : StreamInvariant P) {s : State} (hlink : s.intake.link = .running)
    (hin : s.intake.inHand = none) (hs : P s) : P (enterLost s) :=
  h.keeps_intakeRecord .begins (h.write .gap _ (h.move (.lose s.intake _ hlink hin) hs))

theorem StreamInvariant.keeps_goodFrame (h : StreamInvariant P) (g : GoodFrame) {s : State} (hs : P s) :
    P (goodFrame g s) := by
  unfold goodFrame
  dsimp only
  split
  · rename_i hlink
    rw [writeGood_setIntake]
    exact h.write .good _ (h.move (.follow s.intake _ _ g.reading (by simp [hlink])) hs)
  · rename_i hlink
    split
    · exact hs
    · exact h.move (.hold s.intake _ _ _ hlink) hs
  · rename_i hlink
    rw [writeGood_setIntake]
    exact h.keeps_intakeRecord .ends
      (h.write .good _ (h.move (.follow s.intake _ _ g.reading (by simp [hlink])) hs))

theorem StreamInvariant.keeps_damagedFrame (h : StreamInvariant P) {s : State} (hs : P s) : P (damagedFrame s) := by
  unfold damagedFrame
  split
  · exact hs
  · rename_i hlink
    exact h.write .damaged _ (h.move (.expect s.intake hlink) hs)
  · exact hs

theorem StreamInvariant.keeps_judge (h : StreamInvariant P) (bs : List LinkByte) {s : State} (hs : P s) :
    P (judge bs s) := by
  have hhunting := h.move (.assemble s.intake .hunting) hs
  unfold judge
  dsimp only
  split
  · exact h.keeps_goodFrame _ hhunting
  · exact h.keeps_damagedFrame hhunting

theorem StreamInvariant.keeps_judgeComplete (h : StreamInvariant P) {s : State} (hs : P s) : P (judgeComplete s) := by
  unfold judgeComplete
  split
  · exact h.keeps_judge _ (h.keeps_writeHeldSlots _ hs)
  · exact hs

theorem StreamInvariant.keeps_settle (h : StreamInvariant P) {s : State} (hs : P s) : P (settle s) :=
  h.keeps_settleOwed (h.keeps_writeHeldSlots _ (h.keeps_judgeComplete hs))

theorem StreamInvariant.keeps_expireTimer (h : StreamInvariant P) (t : Timer) {s : State}
    (hin : s.intake.inHand = none) (hs : P s) : P (expireTimer t s) := by
  cases t with
  | assembly => exact h.keeps_damagedFrame (h.move (.assemble s.intake .hunting) hs)
  | link =>
    simp only [expireTimer, expireLink]
    split
    · rename_i hlink
      exact h.keeps_enterLost hlink hin hs
    all_goals
      rename_i hlink
      exact h.move (.stopLinkTimer s.intake (by simp [hlink])) hs
  | gapSlot =>
    simp only [expireTimer, expireGapSlot]
    split
    · rename_i hlink
      exact h.write .gap _ (h.move (.restartGapSlot s.intake _ hlink) hs)
    all_goals
      rename_i hlink
      exact h.move (.stopGapSlot s.intake (by simp [hlink])) hs

/-! ### Bytes and time -/

theorem StreamInvariant.keeps_deliverByte (h : StreamInvariant P) (v : LinkByte) {s : State} (hs : P s) :
    P (deliverByte v s) := by
  have hjudged := h.keeps_judgeComplete hs
  unfold deliverByte
  dsimp only
  split
  · split
    · exact h.move (.assemble _ _) hjudged
    · exact hjudged
  · exact h.move (.assemble _ _) hjudged

theorem StreamInvariant.keeps_sampleByte (h : StreamInvariant P) (n : Nat) (rx : Receiver) (v : LinkByte) {s : State}
    (hs : P s) : P (sampleByte n rx v s) :=
  h.keeps_deliverByte v (h.pass n _ rx
    (Nat.add_le_add_left (Nat.mul_le_mul_right _ (Nat.sub_le n 1)) _) hs)

/-- Time passes with no slot in hand, and each event on the way is settled before it goes on. -/
theorem StreamInvariant.keeps_advanceLoop (h : StreamInvariant P) (fuel target : Nat) {s : State}
    (hin : s.intake.inHand = none) (hs : P s) :
    P (advanceLoop fuel target s) ∧ (advanceLoop fuel target s).intake.inHand = none := by
  induction fuel generalizing s with
  | zero => exact ⟨h.pass _ target _ (s.le_sampled target) hs, hin⟩
  | succ fuel ih =>
    unfold advanceLoop
    dsimp only
    split
    · exact ih (settle_settled _).2.1 (h.keeps_settle (h.keeps_sampleByte _ _ _ hs))
    · rename_i t d _ hnext
      rw [hnext]
      exact ih (settle_settled _).2.1 (h.keeps_settle (h.keeps_expireTimer t hin
        (h.pass _ d _ (Nat.le_of_succ_le (s.le_sampled (d + 1))) hs)))
    · rename_i hnext
      rw [hnext]
      exact ⟨h.pass _ target _ (s.le_sampled target) hs, hin⟩

theorem StreamInvariant.keeps_advanceTo (h : StreamInvariant P) (target : Nat) {s : State} (hs : P s) :
    P (advanceTo target s) := by
  unfold advanceTo
  split
  · exact (h.keeps_advanceLoop _ _ (settle_settled s).2.1 (h.keeps_settle hs)).1
  · exact hs

theorem StreamInvariant.keeps_advanceTo_inHand (h : StreamInvariant P) (target : Nat) {s : State}
    (hin : s.intake.inHand = none) (hs : P s) : (advanceTo target s).intake.inHand = none := by
  unfold advanceTo
  split
  · exact (h.keeps_advanceLoop _ _ (settle_settled s).2.1 (h.keeps_settle hs)).2
  · exact hin

theorem StreamInvariant.keeps_runTimer (h : StreamInvariant P) (t : Timer) {s : State} (hs : P s) :
    P (runTimer t s) := by
  have hsettled := h.keeps_settle hs
  unfold runTimer
  dsimp only
  split
  · exact hsettled
  · split
    · exact h.keeps_expireTimer t (h.keeps_advanceTo_inHand _ (settle_settled s).2.1 hsettled)
        (h.keeps_advanceTo _ hsettled)
    · exact h.keeps_advanceTo _ hsettled

theorem StreamInvariant.keeps_takeSample (h : StreamInvariant P) {s : State} (hs : P s) : P (takeSample s) := by
  unfold takeSample
  dsimp only
  split
  · exact h.keeps_sampleByte _ _ _ hs
  · exact h.pass 1 _ _ (Nat.le_add_right _ _) hs

theorem StreamInvariant.keeps_takeRun (h : StreamInvariant P) (level : Bool) (n : Nat) {s : State} (hs : P s) :
    P (takeRun level n s) := by
  have hline := h.move (.line s.intake level) hs
  unfold takeRun
  dsimp only
  split
  · exact hline
  · exact h.keeps_takeSample (h.keeps_advanceTo _ hline)

theorem StreamInvariant.keeps_takeRuns (h : StreamInvariant P) (line : Line) {s : State} (hs : P s) :
    P (line.foldl (fun t x => takeRun x.1 x.2 t) s) := by
  induction line generalizing s with
  | nil => exact hs
  | cons x line ih => exact ih (h.keeps_takeRun x.1 x.2 hs)

theorem StreamInvariant.keeps_changeDivider (h : StreamInvariant P) {s : State} (hin : s.intake.inHand = none)
    (hs : P s) : P (changeDivider s) := by
  have hrestarted := h.restart s.samplePeriod { s.intake.receiver with busy := none } hs
  unfold changeDivider
  dsimp only
  split
  · rename_i hlink
    exact h.keeps_enterLost hlink hin hrestarted
  all_goals exact hrestarted

/-! ### Requests -/

/-- A request keeps the condition when its body does (R172, R173, R188). -/
theorem StreamInvariant.keeps_transact (h : StreamInvariant P) (p : Port) (clocks : Nat)
    {body : State → State × Response} (hbody : ∀ t, P t → P (body t).1) {s : State} (hs : P s) :
    P (transact p clocks body s) := by
  unfold transact
  split
  · exact h.same (setPort_sameStream _ _ s) hs
  · exact h.same (setPort_sameStream _ _ _) (hbody _ (h.same (setPort_sameStream _ _ _)
      (h.same (finishBegun_frame s).sameStream hs)))

/-- The body of a request leaves the stream alone. -/
def QuietBody (body : State → State × Response) : Prop := ∀ t, SameStream t (body t).1

theorem StreamInvariant.keeps_request (h : StreamInvariant P) {p : Port} {clocks : Nat}
    {body : State → State × Response} (hbody : QuietBody body) {s t : State} (hs : P s)
    (ht : (.next (transact p clocks body s) : Host.Outcome State Fault Refusal) = .next t) : P t := by
  cases ht
  exact h.keeps_transact p clocks (fun t ht => h.same (hbody t) ht) hs

end

theorem answer_quiet (r : State → Response) : QuietBody fun t => (t, r t) := SameStream.refl

theorem attachBody_quiet (p : Port) (fromNow : Bool) : QuietBody (attachBody p fromNow) :=
  fun t => (attachReader_frame p fromNow t).sameStream

theorem detachBody_quiet (p : Port) : QuietBody (detachBody p) := by
  intro t
  unfold detachBody
  split
  · exact (detachReader_frame p t).sameStream
  · exact .refl t

theorem takeBody_quiet (p : Port) : QuietBody (takeBody p) := by
  intro t
  unfold takeBody
  dsimp only
  split
  · exact .refl t
  · split
    · exact .refl t
    · split
      · exact .refl t
      · exact (deliver_frame p _ t).sameStream

theorem confirmBody_quiet (p : Port) (v : Serial) : QuietBody (confirmBody p v) := by
  intro t
  unfold confirmBody
  dsimp only
  split
  · exact .refl t
  · split
    · exact .refl t
    · exact (confirmUpTo_frame p v t).sameStream

theorem rewindBody_quiet (p : Port) : QuietBody (rewindBody p) := by
  intro t
  unfold rewindBody
  dsimp only
  split
  · exact .refl t
  · split
    · exact .refl t
    · exact (setReader_sameStream p _ t).trans (evaluateBacklog_frame p _).sameStream

theorem identifyBody_quiet (p : Port) : QuietBody (identifyBody p) := by
  intro t
  unfold identifyBody
  dsimp only
  split
  · exact .refl t
  · exact setPort_sameStream p _ t

theorem fetchBody_quiet (p : Port) (start : Index) (count : Nat) (mask : Bands Bool) :
    QuietBody (fetchBody p start count mask) := by
  intro t
  unfold fetchBody
  split
  · exact .refl t
  · split
    · exact .refl t
    · split
      · split <;> exact .refl t
      · split
        · exact .refl t
        · exact ⟨rfl, rfl, rfl⟩

theorem readFetchBody_quiet (p : Port) : QuietBody (readFetchBody p) := by
  intro t
  unfold readFetchBody
  dsimp only
  split
  · exact .refl t
  · split
    · exact .refl t
    · exact setPort_sameStream p _ t
  · split <;> exact setPort_sameStream p _ t

theorem portResetBody_quiet (p : Port) : QuietBody (portResetBody p) := fun t =>
  ⟨(detachReader_frame p t).intake, (detachReader_frame p t).ring, rfl⟩

theorem getProfileBody_quiet (b : Option Band) : QuietBody (getProfileBody b) := by
  intro t
  cases b <;> exact .refl t

theorem setProfileBody_quiet (p : Port) (b : Option Band) (written : Profile) :
    QuietBody fun t => setProfileBody p b written (settleOwed t) := by
  intro t
  refine (settleOwed_frame t).sameStream.trans ?_
  cases b <;> exact ⟨rfl, rfl, rfl⟩

theorem setPortBody_quiet (p : Port) (threshold mask : Byte) : QuietBody (setPortBody p threshold mask) := fun t =>
  ((setPort_sameStream p _ t).trans (setReader_sameStream p _ _)).trans (evaluateBacklog_frame p _).sameStream

theorem startBody_quiet : QuietBody fun t => startBody (settleOwed t) := by
  intro t
  refine (settleOwed_frame t).sameStream.trans ?_
  unfold startBody
  dsimp only
  split <;> exact ⟨rfl, rfl, rfl⟩

theorem stopBody_quiet : QuietBody fun t => stopBody (settleOwed t) := by
  intro t
  refine (settleOwed_frame t).sameStream.trans ?_
  unfold stopBody
  dsimp only
  split <;> exact ⟨rfl, rfl, rfl⟩

section
variable {P : State → Prop}

/-- A changed divider finds no slot in hand, since the frame is written out before it (R6, R8). -/
theorem StreamInvariant.keeps_setStation (h : StreamInvariant P) (p : Port) (written : Station) {s : State} (hs : P s) :
    P (setStationBody p written (settleForStation (clampStation written) s)).1 := by
  have hsettled : P (settleForStation (clampStation written) s) := by
    unfold settleForStation
    split
    · exact h.keeps_settleOwed hs
    · exact h.keeps_settle hs
  have hin : (clampStation written).linkDivider ≠ s.settings.station.linkDivider →
      (settleForStation (clampStation written) s).intake.inHand = none := by
    intro hne
    rw [settleForStation, if_neg hne]
    exact (settle_settled s).2.1
  have hsame : (settleForStation (clampStation written) s).settings = s.settings := by
    unfold settleForStation
    split
    · exact (settleOwed_frame s).settings
    · exact (settle_frame s).settings
  unfold setStationBody acceptStation
  dsimp only
  split
  · split
    · exact h.same (s := settleForStation (clampStation written) s) ⟨rfl, rfl, rfl⟩ hsettled
    · rename_i hne
      rw [hsame] at hne
      exact h.keeps_changeDivider (hin hne)
        (h.same (s := settleForStation (clampStation written) s) ⟨rfl, rfl, rfl⟩ hsettled)
  · exact hsettled

/-! ### Every command and every step -/

/-- A command that keeps the condition on the one state it answers. -/
theorem StreamInvariant.of_next {s t : State} (hs : P s)
    (ht : (.next s : Host.Outcome State Fault Refusal) = .next t) : P t := by
  cases ht
  exact hs

theorem StreamInvariant.keeps_grantRead (h : StreamInvariant P) {s : State} (hs : P s) : P (grantRead s) := by
  cases hg : s.grantee with
  | none =>
    rw [grantRead, hg]
    exact hs
  | some g => exact h.grant hg hs

theorem StreamInvariant.keeps_completeLane (h : StreamInvariant P) (l : LaneId) {s : State} (hs : P s) :
    P (completeLane l s) := h.same (completeLane_frame l s).sameStream hs

theorem StreamInvariant.keeps_unitRow (h : StreamInvariant P) (d : UnitDue) (b : Band) {s : State} (hs : P s) :
    P (unitRow d b s) := by
  unfold unitRow
  split
  · exact h.same (unitFinish_frame b s).sameStream hs
  · exact hs

theorem StreamInvariant.keeps_finishBegun (h : StreamInvariant P) {s : State} (hs : P s) : P (finishBegun s) :=
  h.same (finishBegun_frame s).sameStream hs

theorem StreamInvariant.keeps_timingFinish (h : StreamInvariant P) (due : Prop) [Decidable due] {s : State}
    (hs : P s) : P (if due then timingFinish s else s) := by
  split
  · exact h.same (timingFinish_frame s).sameStream hs
  · exact hs

theorem StreamInvariant.keeps_finishList (h : StreamInvariant P) {s : State} (hs : P s) : P (finishList s) := by
  unfold finishList
  split
  · exact h.same (listFinish_frame s).sameStream hs
  all_goals exact hs

theorem StreamInvariant.keeps_finishRefiner (h : StreamInvariant P) {s : State} (hs : P s) :
    P (finishRefiner s) := by
  unfold finishRefiner
  split
  · exact h.same (refinerFinish_frame s).sameStream hs
  · exact h.same (refinerFinish_frame s).sameStream hs
  all_goals exact hs

theorem StreamInvariant.keeps_execTimeMark (h : StreamInvariant P) (after : Nat) {s t : State} (hs : P s)
    (ht : execTimeMark after s = .next t) : P t := by
  have hsettled := h.keeps_settleOwed (h.keeps_advanceTo (s.clock.now + after) hs)
  unfold execTimeMark at ht
  dsimp only at ht
  split at ht
  · exact of_next hsettled ht
  · exact of_next (h.same (latchMark_frame _ _).sameStream hsettled) ht

theorem StreamInvariant.keeps_execReadGrant (h : StreamInvariant P) {s t : State} (hs : P s)
    (ht : execReadGrant s = .next t) : P t := by
  have hsettled := h.keeps_settle hs
  unfold execReadGrant at ht
  dsimp only at ht
  split at ht
  · exact of_next hsettled ht
  · exact of_next (h.keeps_grantRead (h.keeps_advanceTo _ hsettled)) ht

theorem StreamInvariant.keeps_execReset (h : StreamInvariant P) (edge : ResetEdge) {s t : State}
    (ht : execReset s edge = .next t) : P t := by
  cases edge
  all_goals exact of_next (h.power s.intake.line rfl rfl rfl) ht

theorem StreamInvariant.keeps_execSetStation (h : StreamInvariant P) (p : Port) (rest : List Bool) {s t : State}
    (hs : P s) (ht : execSetStation p rest s = .next t) : P t := by
  unfold execSetStation at ht
  dsimp only at ht
  split at ht
  · exact h.keeps_request (answer_quiet _) hs ht
  · exact of_next (h.keeps_transact _ _ (fun _ hu => h.keeps_setStation p _ hu) hs) ht

/-- Row by row: a command is one of the operations above, or a request whose body keeps the condition. -/
theorem StreamInvariant.keeps_exec (h : StreamInvariant P) (c : Instr) {s t : State} (hs : P s)
    (ht : exec c s = .next t) : P t := by
  cases c with
  | powerOn => exact of_next (h.power true rfl rfl rfl) ht
  | reset edge => exact h.keeps_execReset edge ht
  | frame hold => exact of_next (h.keeps_writeHeldSlots _ (h.keeps_judgeComplete hs)) ht
  | assemblyTimerExpiry => exact of_next (h.keeps_runTimer .assembly hs) ht
  | linkTimerExpiry => exact of_next (h.keeps_runTimer .link hs) ht
  | gapSlotTimerExpiry => exact of_next (h.keeps_runTimer .gapSlot hs) ht
  | timeMark after => exact h.keeps_execTimeMark after hs ht
  | gapRunEvent =>
    exact of_next (h.keeps_unitRow _ _ (h.keeps_unitRow _ _ (h.keeps_unitRow _ _ (h.keeps_finishBegun hs)))) ht
  | watchExpiry => exact of_next (h.keeps_timingFinish _ (h.keeps_finishBegun hs)) ht
  | holdoverExpiry => exact of_next (h.keeps_timingFinish _ (h.keeps_finishBegun hs)) ht
  | warmCountExpiry b => exact of_next (h.keeps_unitRow _ b (h.keeps_finishBegun hs)) ht
  | primaryDeclaration b => exact of_next (h.keeps_unitRow _ b (h.keeps_finishBegun hs)) ht
  | stackedDeclaration b => exact of_next (h.keeps_unitRow _ b (h.keeps_finishBegun hs)) ht
  | maxDurExpiry b => exact of_next (h.keeps_unitRow _ b (h.keeps_finishBegun hs)) ht
  | deadCountExpiry b => exact of_next (h.keeps_unitRow _ b (h.keeps_finishBegun hs)) ht
  | launch =>
    exact of_next (h.same ((refinerFinish_frame _).sameStream.trans (launchExamination_frame _).sameStream)
      (h.keeps_finishList hs)) ht
  | scanStart => exact of_next (h.same (refinerScanStart_frame _).sameStream (h.keeps_finishList hs)) ht
  | readGrant => exact h.keeps_execReadGrant hs ht
  | resolutionCompletion l => exact of_next (h.keeps_completeLane l (h.keeps_settleOwed hs)) ht
  | deadlineExpiry => exact of_next (h.same (refinerExpiry_frame _).sameStream (h.keeps_finishList hs)) ht
  | release => exact of_next (h.same (listFinish_frame _).sameStream (h.keeps_finishRefiner hs)) ht
  | retirement => exact of_next (h.same (listRetire_frame _).sameStream (h.keeps_finishRefiner hs)) ht
  | identify p rest => exact h.keeps_request (identifyBody_quiet p) hs ht
  | status p rest => exact h.keeps_request (answer_quiet _) hs ht
  | attachAll p rest => exact h.keeps_request (attachBody_quiet p false) hs ht
  | attachFromNow p rest => exact h.keeps_request (attachBody_quiet p true) hs ht
  | attachUnknownMode p rest =>
    replace ht : execAttachUnknownMode p rest s = .next t := ht
    unfold execAttachUnknownMode at ht
    split at ht
    · exact h.keeps_request (answer_quiet _) hs ht
    · split at ht
      · cases ht
      · exact h.keeps_request (answer_quiet _) hs ht
  | detach p rest => exact h.keeps_request (detachBody_quiet p) hs ht
  | take p rest => exact h.keeps_request (takeBody_quiet p) hs ht
  | confirm p rest =>
    replace ht : execConfirm p rest s = .next t := ht
    unfold execConfirm at ht
    split at ht
    · exact h.keeps_request (confirmBody_quiet p _) hs ht
    · exact h.keeps_request (answer_quiet _) hs ht
  | rewind p rest => exact h.keeps_request (rewindBody_quiet p) hs ht
  | fetch p rest =>
    replace ht : execFetch p rest s = .next t := ht
    unfold execFetch at ht
    split at ht
    · exact h.keeps_request (fetchBody_quiet p _ _ _) hs ht
    · exact h.keeps_request (answer_quiet _) hs ht
  | readFetch p rest => exact h.keeps_request (readFetchBody_quiet p) hs ht
  | getProfile p rest =>
    replace ht : execGetProfile p rest s = .next t := ht
    unfold execGetProfile at ht
    split at ht
    · exact h.keeps_request (getProfileBody_quiet _) hs ht
    · exact h.keeps_request (answer_quiet _) hs ht
  | setProfile p rest =>
    replace ht : execSetProfile p rest s = .next t := ht
    unfold execSetProfile at ht
    split at ht
    · split at ht
      · exact h.keeps_request (answer_quiet _) hs ht
      · exact h.keeps_request (setProfileBody_quiet p _ _) hs ht
    · exact h.keeps_request (answer_quiet _) hs ht
  | getStation p rest => exact h.keeps_request (answer_quiet _) hs ht
  | setStation p rest => exact h.keeps_execSetStation p rest hs ht
  | setPort p rest =>
    replace ht : execSetPort p rest s = .next t := ht
    unfold execSetPort at ht
    split at ht
    · exact h.keeps_request (setPortBody_quiet p _ _) hs ht
    · exact h.keeps_request (answer_quiet _) hs ht
  | start p rest => exact h.keeps_request startBody_quiet hs ht
  | stop p rest => exact h.keeps_request stopBody_quiet hs ht
  | getAnchor p rest => exact h.keeps_request (answer_quiet _) hs ht
  | portReset p rest => exact h.keeps_request (portResetBody_quiet p) hs ht
  | unknownRequest p code rest =>
    replace ht : execUnknownRequest p code rest s = .next t := ht
    unfold execUnknownRequest at ht
    split at ht
    · cases ht
    · exact h.keeps_request (answer_quiet _) hs ht
  | emptyTransaction p bits =>
    replace ht : execEmptyTransaction p bits s = .next t := ht
    unfold execEmptyTransaction at ht
    split at ht
    · exact h.keeps_request (answer_quiet _) hs ht
    · cases ht
  | lockedOutSelect p clocks held =>
    replace ht : execLockedOutSelect p clocks s held = .next t := ht
    unfold execLockedOutSelect at ht
    split at ht
    all_goals exact of_next (h.same (setPort_sameStream p _ s) hs) ht
  | byteDelivered line => exact of_next (h.keeps_takeRuns line hs) ht

theorem StreamInvariant.keeps_idle (h : StreamInvariant P) {s : State} (hs : P s) : P (idle s) := by
  unfold idle
  split
  · exact h.keeps_settle hs
  · split
    · exact h.keeps_completeLane _ hs
    · split
      · exact h.keeps_grantRead hs
      · exact h.keeps_advanceTo _ hs

/-- What survives each of these survives every step. -/
theorem StreamInvariant.keeps_step (h : StreamInvariant P) {s t : State} (hs : P s) (ht : step s = .next t) :
    P t := by
  unfold step at ht
  split at ht
  · exact of_next (h.keeps_idle hs) ht
  · rename_i c rest _
    have hrest : P { s with pending := rest } := h.same (s := s) ⟨rfl, rfl, rfl⟩ hs
    exact h.keeps_exec c hrest ht

end

/-! ### The ring and the link -/

theorem intakeMove_nextIndex {f g : FrameIntake} (h : IntakeMove f g) : g.nextIndex = f.nextIndex := by
  cases h <;> rfl

/-- R13, R35, R36, R40: only a slot write changes what the ring holds, and a grant stays within the budget. -/
theorem ringKept_invariant : StreamInvariant State.RingKept where
  same h hs := hs.of_same h.ring (by rw [h.intake])
  write k r _ hs := writeSlot_ringKept k r hs
  move hm hs := hs.of_same rfl (intakeMove_nextIndex hm)
  pass _ _ _ _ hs := hs.of_same rfl rfl
  restart _ _ hs := hs.of_same rfl rfl
  grant {s g} hg hs := by
    obtain ⟨lanes, fetches, served, hle, hring⟩ := grantRead_ring s
    have hbudget := State.grantee_budget hg
    obtain ⟨hcells, hdepth, hindex, hnewest, -⟩ := hs
    unfold State.RingKept
    rw [hring, grantRead_intake]
    exact ⟨hcells, hdepth, hindex, hnewest, hle.trans hbudget⟩
  power {s} level hintake hring _ := by
    unfold State.RingKept
    rw [hintake, hring]
    exact ⟨rfl, by decide, fun _ => rfl, rfl, by decide⟩

/-- Settles O5: the ring is kept by what the stream does to it, so by every step. -/
theorem ringKeptByEveryStep : Obligations.RingKeptByEveryStep := fun _ _ => ringKept_invariant.keeps_step

theorem State.linkKept_searching {s : State} (h : s.intake.link = .searching) :
    s.LinkKept ↔ s.clock.now ≤ s.intake.nextSample ∧ s.intake.inHand = none ∧ s.intake.expected = none
      ∧ s.intake.linkTimer = none ∧ s.intake.gapSlotTimer = none ∧ s.intake.lastGood = none := by
  unfold State.LinkKept
  simp [h]

theorem State.linkKept_running {s : State} (h : s.intake.link = .running) :
    s.LinkKept ↔ s.clock.now ≤ s.intake.nextSample ∧ s.intake.expected.isSome
      ∧ s.intake.linkTimer.isSome ∧ s.intake.gapSlotTimer = none ∧ s.intake.lastGood.isSome := by
  unfold State.LinkKept
  simp [h]

theorem State.linkKept_lost {s : State} (h : s.intake.link = .lost) :
    s.LinkKept ↔ s.clock.now ≤ s.intake.nextSample ∧ s.intake.inHand = none ∧ s.intake.expected = none
      ∧ s.intake.linkTimer = none ∧ s.intake.gapSlotTimer.isSome ∧ s.intake.lastGood.isSome := by
  unfold State.LinkKept
  simp [h]

/-- Whatever else changes, the link is kept while its own items are and no sample is overdue. -/
theorem State.LinkKept.of_items {s t : State} (h : s.LinkKept) (hnow : t.clock.now ≤ t.intake.nextSample)
    (hitems : (t.intake.link, t.intake.inHand, t.intake.expected, t.intake.lastGood, t.intake.linkTimer,
        t.intake.gapSlotTimer) =
      (s.intake.link, s.intake.inHand, s.intake.expected, s.intake.lastGood, s.intake.linkTimer,
        s.intake.gapSlotTimer)) : t.LinkKept := by
  simp only [Prod.mk.injEq] at hitems
  obtain ⟨hlink, hin, hexpected, hlast, htimer, hgap⟩ := hitems
  unfold State.LinkKept at h ⊢
  rw [hlink, hin, hexpected, hlast, htimer, hgap]
  exact ⟨hnow, h.2⟩

theorem State.LinkKept.lastGood {s : State} (h : s.LinkKept) (hlink : s.intake.link ≠ .searching) :
    s.intake.lastGood.isSome := by
  cases hl : s.intake.link with
  | searching => exact absurd hl hlink
  | running => exact ((State.linkKept_running hl).1 h).2.2.2.2
  | lost => exact ((State.linkKept_lost hl).1 h).2.2.2.2.2

/-- Each move leaves the items that its link state asks for (R12, R14 to R18). -/
theorem intakeMove_linkKept {s : State} {f : FrameIntake} (hm : IntakeMove s.intake f) (hs : s.LinkKept) :
    (s.setIntake f).LinkKept := by
  have hnow : s.clock.now ≤ s.intake.nextSample := hs.1
  have hrunning : s.intake.inHand.isSome → s.intake.link = .running := hs.2.1
  cases hm with
  | line | assemble => exact hs.of_items hnow rfl
  | follow => exact (State.linkKept_running rfl).2 ⟨hnow, rfl, rfl, rfl, rfl⟩
  | hold c e x h => exact (State.linkKept_running rfl).2 ⟨hnow, rfl, rfl, rfl, hs.lastGood (by simp [h])⟩
  | fill x h =>
    have hlink := hrunning h
    exact (State.linkKept_running (by exact hlink)).2 ((State.linkKept_running hlink).1 hs)
  | fillLast r h =>
    have hlink := hrunning h
    obtain ⟨-, hexpected, htimer, hgap, -⟩ := (State.linkKept_running hlink).1 hs
    exact (State.linkKept_running (by exact hlink)).2 ⟨hnow, hexpected, htimer, hgap, rfl⟩
  | expect hlink =>
    obtain ⟨-, hexpected, htimer, hgap, hlast⟩ := (State.linkKept_running hlink).1 hs
    exact (State.linkKept_running (by exact hlink)).2
      ⟨hnow, by simpa using hexpected, htimer, hgap, hlast⟩
  | lose expiry hlink hin =>
    exact (State.linkKept_lost rfl).2 ⟨hnow, hin, rfl, rfl, rfl, hs.lastGood (by simp [hlink])⟩
  | stopLinkTimer hlink =>
    have htimer : s.intake.linkTimer = none := by
      cases hl : s.intake.link with
      | searching => exact ((State.linkKept_searching hl).1 hs).2.2.2.1
      | running => exact absurd hl hlink
      | lost => exact ((State.linkKept_lost hl).1 hs).2.2.2.1
    exact hs.of_items hnow (by simp [htimer])
  | restartGapSlot expiry hlink =>
    obtain ⟨-, hin, hexpected, htimer, -, hlast⟩ := (State.linkKept_lost hlink).1 hs
    exact (State.linkKept_lost (by exact hlink)).2 ⟨hnow, hin, hexpected, htimer, rfl, hlast⟩
  | stopGapSlot hlink =>
    have hgap : s.intake.gapSlotTimer = none := by
      cases hl : s.intake.link with
      | searching => exact ((State.linkKept_searching hl).1 hs).2.2.2.2.1
      | running => exact ((State.linkKept_running hl).1 hs).2.2.2.1
      | lost => exact absurd hl hlink
    exact hs.of_items hnow (by simp [hgap])

/-- Section 1.5, R12: the moves of Frame Intake keep the items of the link, and nothing else touches them. -/
theorem linkKept_invariant : StreamInvariant State.LinkKept where
  same {s t} h hs := by
    refine hs.of_items ?_ (by rw [h.intake])
    rw [h.intake, h.now]
    exact hs.1
  write k r s hs := hs.of_items (by simpa using hs.1) (by simp)
  move := intakeMove_linkKept
  pass {s} n now rx hle hs := hs.of_items (max_le (hs.1.trans (Nat.le_add_right _ _)) hle) rfl
  restart n rx hs := hs.of_items (Nat.le_add_right _ _) rfl
  grant {s g} _ hs := by
    refine hs.of_items ?_ (by rw [grantRead_intake])
    rw [grantRead_intake, grantRead_now]
    exact hs.1
  power {s} level hintake _ hnow := by
    refine (State.linkKept_searching (by rw [hintake]; rfl)).2 ?_
    rw [hintake, hnow]
    exact ⟨Nat.zero_le _, rfl, rfl, rfl, rfl, rfl⟩

/-- Settles O7: the link's items are kept by what the stream does to them, so by every step. -/
theorem linkKeptByEveryStep : Obligations.LinkKeptByEveryStep := fun _ _ => linkKept_invariant.keeps_step

end Sys2Proof.Machine
end

section
/-! The check byte as a shift register (R9) and the judging of twelve bytes (R8, R11, R189). -/

namespace Sys2Proof.Machine

/-! ### The check byte (R9) -/

/-- A byte held in the register's content enters bit by bit: its top bit now, the others with the next shifts. -/
theorem crcBit_xor (c v : Byte) : crcBit (c ^^^ v) = crcShift c (v.getLsbD 7) ^^^ (v <<< 1) := by
  unfold crcBit crcShift
  rw [BitVec.getLsbD_xor, BitVec.shiftLeft_xor_distrib]
  split
  · rw [BitVec.xor_assoc, BitVec.xor_comm (v <<< 1), ← BitVec.xor_assoc]
  · rfl

/-- A byte enters the CRC as its eight bits, most significant first. -/
theorem crcByte_eq_shifts (c v : Byte) : crcByte c v = (bitsOfByte v).foldl crcShift c := by
  have hgone : v <<< 8 = 0 := by simp
  simp only [crcByte, crcBit_xor, bitsOfByte, List.foldl_cons, List.foldl_nil, ← BitVec.shiftLeft_add,
    BitVec.getLsbD_shiftLeft]
  simp

theorem crc_foldl_shifts (bs : List Byte) (c : Byte) :
    bs.foldl crcByte c = (bitsOfBytes bs).foldl crcShift c := by
  induction bs generalizing c with
  | nil => rfl
  | cons v bs ih =>
    rw [List.foldl_cons, ih, crcByte_eq_shifts, bitsOfBytes, bitsOfBytes, List.flatMap_cons, List.foldl_append]

/-- A shift of the register never loses a content other than 0. -/
theorem crcBit_eq_zero (c : Byte) : crcBit c = 0 ↔ c = 0 := by
  revert c
  decide

theorem crcByte_eq_zero (c v : Byte) : crcByte c v = 0 ↔ c = v := by
  simp only [crcByte, crcBit_eq_zero]
  exact BitVec.xor_eq_zero_iff

/-- Settles O14: the register takes a byte bit by bit, and is 0 after a byte exactly when that byte was its content. -/
theorem checkByteFollowsItsRule : Obligations.CheckByteFollowsItsRule := by
  refine ⟨fun bs => crc_foldl_shifts bs 0, fun bs c => ?_, by decide +kernel, by decide +kernel⟩
  rw [crc8, List.foldl_append]
  exact crcByte_eq_zero _ c

/-! ### Twelve bytes judged (R8, R11, R189) -/

/-- Three bytes side by side, most significant first, are the sample they carry (R189). -/
theorem sample24_eq_append (b2 b1 b0 : Byte) : sample24 b2 b1 b0 = b2 ++ b1 ++ b0 := by
  have h1 : b1.toNat < 2 ^ 8 := b1.isLt
  have h0 : b0.toNat < 2 ^ 8 := b0.isLt
  apply BitVec.eq_of_toNat_eq
  rw [BitVec.toNat_append, BitVec.toNat_append, ← Nat.shiftLeft_add_eq_or_of_lt h1,
    ← Nat.shiftLeft_add_eq_or_of_lt h0, Nat.shiftLeft_eq, Nat.shiftLeft_eq, sample24, BitVec.toNat_ofNat]
  have h2 := b2.isLt
  omega

/-- The flag is the one marked, or the sample stands at either end of its range (R11). -/
theorem clipFlag_iff (marked : Bool) (v : Sample) :
    clipFlag marked v = true ↔ marked = true ∨ v.toInt = 8388607 ∨ v.toInt = -8388608 := by
  have hhigh : v = 0x7FFFFF ↔ v.toInt = 8388607 := BitVec.toInt_inj.symm
  have hlow : v = 0x800000 ↔ v.toInt = -8388608 := BitVec.toInt_inj.symm
  simp only [clipFlag, Bool.or_eq_true, beq_iff_eq, or_assoc, hhigh, hlow]

theorem judgeFrame_of_fault {bs : List LinkByte} (h : ∃ b ∈ bs, b.fault = true) : judgeFrame bs = none := by
  unfold judgeFrame
  split
  · rw [if_pos (List.any_eq_true.2 h)]
  · rfl

theorem judgeFrame_of_length {bs : List LinkByte} (h : bs.length ≠ 12) : judgeFrame bs = none := by
  unfold judgeFrame
  split
  · rename_i hbytes
    exact absurd (by simpa using congrArg List.length hbytes) h
  · rfl

/-- Twelve bytes whose last is not the check of the others are damaged (R9). -/
theorem judgeFrame_of_check {bs : List LinkByte}
    (h : (bs.map LinkByte.value).getLast? ≠ some (crc8 ((bs.map LinkByte.value).take 11))) :
    judgeFrame bs = none := by
  unfold judgeFrame
  split
  · rename_i hbytes
    rw [hbytes] at h
    split
    · rfl
    · exact if_neg fun heq => h (congrArg some heq.symm)
  · rfl

/-- Settles O29: bytes without a fault and with their check are the frame of their places, and each way to fail the
judgement is a damaged frame. -/
theorem framesAreJudged : Obligations.FramesAreJudged := by
  refine ⟨fun counter flags z2 z1 z0 n2 n1 n0 e2 e1 e0 => ?_,
    fun bs h => h.elim judgeFrame_of_fault judgeFrame_of_length, fun bs _ => judgeFrame_of_check⟩
  refine ⟨{ counter := counter
            reading := readingOf flags (sample24 z2 z1 z0) (sample24 n2 n1 n0) (sample24 e2 e1 e0) },
    ?_, rfl, sample24_eq_append .., sample24_eq_append .., sample24_eq_append .., rfl, clipFlag_iff _ _,
    clipFlag_iff _ _, clipFlag_iff _ _⟩
  simp [judgeFrame]

end Sys2Proof.Machine
end

section
/-! The byte receiver stretch by stretch (R5): what it makes of a run of samples at one level, between, at and after the
middles of the bits. -/

namespace Sys2Proof.Machine

/-! ### One sample -/

theorem rxSample_fall : rxSample false { last := true, busy := none } =
    ({ last := false, busy := some { count := 0, bits := 0 } }, none) := rfl

/-- Away from the middles of the bits the receiver only counts. The start bit is looked at again, and the stop bit is
taken, at the middles of the first and the tenth bit time (R5). -/
theorem rxSample_count (level last : Bool) {c : Nat} (bits : Byte) (h : (c + 1) % 16 ≠ 8) :
    rxSample level { last := last, busy := some { count := c, bits := bits } } =
      ({ last := level, busy := some { count := c + 1, bits := bits } }, none) := by
  have hstart : c + 1 ≠ startSample := fun he => h (by rw [he]; rfl)
  have hstop : c + 1 ≠ stopSample := fun he => h (by rw [he]; rfl)
  have hdata : ¬ (startSample < c + 1 ∧ (c + 1) % 16 = startSample) := fun hd => h hd.2
  simp only [rxSample, if_neg hstart, if_neg hstop, if_neg hdata]

/-- The middle of a data bit (R5). -/
theorem rxSample_data (level last : Bool) {c : Nat} (bits : Byte) (h : (c + 1) % 16 = 8) (hlo : 8 < c + 1)
    (hhi : c + 1 < 152) :
    rxSample level { last := last, busy := some { count := c, bits := bits } } =
      ({ last := level, busy := some
          { count := c + 1, bits := (bits >>> 1) ||| (if level then 0x80 else 0) } }, none) := by
  have hstart : c + 1 ≠ startSample := Nat.ne_of_gt hlo
  have hstop : c + 1 ≠ stopSample := Nat.ne_of_lt hhi
  have hdata : startSample < c + 1 ∧ (c + 1) % 16 = startSample := ⟨hlo, h⟩
  simp only [rxSample, if_neg hstart, if_neg hstop, if_pos hdata]

/-! ### A run of samples -/

/-- A waiting receiver at its own level stays as it is. -/
@[simp] theorem rxRun_idle (level : Bool) (n : Nat) : rxRun level n { last := level, busy := none } =
    { receiver := { last := level, busy := none }, byte := none, left := 0 } := by
  cases n with
  | zero => rfl
  | succ n =>
    have hquiet : rxQuiet level { last := level, busy := none } = true := by simp [rxQuiet]
    rw [rxRun, if_pos hquiet]

theorem rxRun_succ_of_sample {level : Bool} {rx rx' : Receiver} (n : Nat) (hquiet : rxQuiet level rx = false)
    (h : rxSample level rx = (rx', none)) : rxRun level (n + 1) rx = rxRun level n rx' := by
  simp only [rxRun, hquiet, h, Bool.false_eq_true, if_false]

theorem rxRun_succ_of_byte {level : Bool} {rx rx' : Receiver} {v : LinkByte} (n : Nat)
    (hquiet : rxQuiet level rx = false) (h : rxSample level rx = (rx', some v)) :
    rxRun level (n + 1) rx = { receiver := rx', byte := some v, left := n } := by
  simp only [rxRun, hquiet, h, Bool.false_eq_true, if_false]

/-- A run that completes no byte goes on where its first part left it. -/
theorem rxRun_add (level : Bool) (m n : Nat) {rx : Receiver} (h : (rxRun level m rx).byte = none) :
    rxRun level (m + n) rx = rxRun level n (rxRun level m rx).receiver := by
  induction m generalizing rx with
  | zero => rw [Nat.zero_add]; rfl
  | succ m ih =>
    rw [Nat.succ_add]
    cases hquiet : rxQuiet level rx with
    | true =>
      have hbusy : rx.busy = none := by
        simp only [rxQuiet, Bool.and_eq_true, Option.isNone_iff_eq_none] at hquiet
        exact hquiet.1
      have hwaits : ∀ k, rxRun level (k + 1) rx =
          { receiver := { last := level, busy := none }, byte := none, left := 0 } := by
        intro k
        rw [rxRun, if_pos hquiet, hbusy]
      rw [hwaits, hwaits, rxRun_idle]
    | false =>
      rcases hsample : rxSample level rx with ⟨rx', byte⟩
      cases byte with
      | none =>
        rw [rxRun_succ_of_sample m hquiet hsample] at h ⊢
        rw [rxRun_succ_of_sample _ hquiet hsample, ih h]
      | some v =>
        rw [rxRun_succ_of_byte m hquiet hsample] at h
        cases h

/-- Between two middles the receiver counts the samples of a run. -/
theorem rxRun_count (level last : Bool) {c : Nat} (bits : Byte) (n : Nat)
    (h : ∀ j, c < j → j ≤ c + (n + 1) → j % 16 ≠ 8) :
    rxRun level (n + 1) { last := last, busy := some { count := c, bits := bits } } =
      { receiver := { last := level, busy := some { count := c + (n + 1), bits := bits } }
        byte := none, left := 0 } := by
  induction n generalizing c last with
  | zero => exact rxRun_succ_of_sample 0 rfl (rxSample_count level last bits (h _ (Nat.lt_succ_self c) (Nat.le_refl _)))
  | succ n ih =>
    rw [rxRun_succ_of_sample (n + 1) rfl (rxSample_count level last bits (h _ (Nat.lt_succ_self c) (by omega))),
      ih level fun j hlo hhi => h j (Nat.lt_of_succ_lt hlo) (by omega), Nat.succ_add_eq_add_succ]

/-- A start bit of 16 low samples (R5). -/
theorem rxRun_startBit : rxRun false 16 { last := true, busy := none } =
    { receiver := { last := false, busy := some { count := 15, bits := 0 } }, byte := none, left := 0 } := rfl

/-- The first low samples of a start, up to the one before its middle. -/
theorem rxRun_start {n : Nat} (h : n < 8) : rxRun false (n + 1) { last := true, busy := none } =
    { receiver := { last := false, busy := some { count := n, bits := 0 } }, byte := none, left := 0 } := by
  rw [rxRun_succ_of_sample n rfl rxSample_fall]
  cases n with
  | zero => rfl
  | succ n => rw [rxRun_count false false 0 n fun j hlo hhi => by omega, Nat.zero_add]

/-- A data bit of 16 samples enters the bits taken from above (R5). -/
theorem rxRun_dataBit (level last : Bool) (bits : Byte) {k : Nat} (hk : k < 8) :
    rxRun level 16 { last := last, busy := some { count := 16 * k + 15, bits := bits } } =
      { receiver :=
          { last := level
            busy := some { count := 16 * (k + 1) + 15, bits := (bits >>> 1) ||| (if level then 0x80 else 0) } }
        byte := none, left := 0 } := by
  have hbefore := rxRun_count level last (c := 16 * k + 15) bits 7 fun j hlo hhi => by omega
  have hmiddle := rxSample_data level level (c := 16 * k + 15 + 8) bits (by omega) (by omega) (by omega)
  have hafter := rxRun_count level level (c := 16 * k + 15 + 8 + 1)
    ((bits >>> 1) ||| (if level then 0x80 else 0)) 6 fun j hlo hhi => by omega
  rw [show 16 * k + 15 + 8 + 1 + (6 + 1) = 16 * (k + 1) + 15 by omega] at hafter
  rw [← hafter, ← rxRun_succ_of_sample 7 rfl hmiddle]
  exact (rxRun_add level (7 + 1) 8 (by rw [hbefore])).trans (by rw [hbefore])

/-- Nine samples of the stop bit complete the byte at its middle (R5). -/
theorem rxRun_stopBit (stop last : Bool) (bits : Byte) (n : Nat) :
    rxRun stop (9 + n) { last := last, busy := some { count := 143, bits := bits } } =
      { receiver := { last := stop, busy := none }, byte := some { value := bits, fault := !stop }, left := n } := by
  have hbefore := rxRun_count stop last (c := 143) bits 7 fun j hlo hhi => by omega
  rw [show 9 + n = (7 + 1) + (n + 1) by omega, rxRun_add stop (7 + 1) (n + 1) (by rw [hbefore]), hbefore]
  exact rxRun_succ_of_byte n rfl rfl

/-! ### Stretches of the line -/

/-- A stretch that completes no byte. -/
theorem rxLine_cons_of_none {level : Bool} {n : Nat} {rx rx' : Receiver} (more : Line) (out : List LinkByte)
    (h : rxRun level n rx = { receiver := rx', byte := none, left := 0 }) :
    rxLine ((level, n) :: more) rx out = rxLine more rx' out := by
  rw [rxLine, h, Option.toList_none, List.append_nil]

/-- What the receiver holds of a byte after k of its data bits: the k lowest, at the top (R5). -/
theorem takeBit_shifted (v : Byte) {k : Nat} (hk : k < 8) :
    ((v <<< (8 - k)) >>> 1) ||| (if v.getLsbD k then 0x80 else 0) = v <<< (8 - (k + 1)) := by
  have htop : (if v.getLsbD k then 0x80 else 0 : Byte) = (if v.getLsbD k then BitVec.twoPow 8 7 else 0) := rfl
  apply BitVec.eq_of_getLsbD_eq
  intro i hi
  have hbit : (if v.getLsbD k then BitVec.twoPow 8 7 else 0 : Byte).getLsbD i = (v.getLsbD k && decide (i = 7)) := by
    cases v.getLsbD k <;> simp [BitVec.getLsbD_twoPow, eq_comm]
  rw [htop, BitVec.getLsbD_or, hbit, BitVec.getLsbD_ushiftRight, BitVec.getLsbD_shiftLeft, BitVec.getLsbD_shiftLeft]
  rcases Nat.lt_or_eq_of_le (Nat.le_of_lt_succ hi) with hlt | rfl
  · have hin : 1 + i < 8 := by omega
    simp [hi, hin, Nat.ne_of_lt hlt, show (1 + i < 8 - k) = (i < 8 - (k + 1)) by simp; omega,
      show 1 + i - (8 - k) = i - (8 - (k + 1)) by omega]
  · simp [show ¬ 7 < 7 - k by omega, show 7 - (7 - k) = k by omega]

theorem rxRun_takeBit (v : Byte) (last : Bool) {k : Nat} (hk : k < 8) :
    rxRun (v.getLsbD k) 16 { last := last, busy := some { count := 16 * k + 15, bits := v <<< (8 - k) } } =
      { receiver :=
          { last := v.getLsbD k, busy := some { count := 16 * (k + 1) + 15, bits := v <<< (8 - (k + 1)) } }
        byte := none, left := 0 } := by
  rw [rxRun_dataBit _ last _ hk, takeBit_shifted v hk]

/-- The line of a byte up to its stop bit (R5). -/
def lineToStop (v : Byte) : Line :=
  [(true, 7), (false, 16), (v.getLsbD 0, 16), (v.getLsbD 1, 16), (v.getLsbD 2, 16), (v.getLsbD 3, 16),
   (v.getLsbD 4, 16), (v.getLsbD 5, 16), (v.getLsbD 6, 16), (v.getLsbD 7, 16)]

theorem lineOfByte_eq (v : Byte) (stop : Bool) : lineOfByte v stop = lineToStop v ++ [(stop, 9)] := rfl

/-- Bit by bit the receiver takes the whole byte (R5). -/
theorem rxLine_toStop (v : Byte) (more : Line) :
    rxLine (lineToStop v ++ more) { last := true, busy := none } [] =
      rxLine more { last := v.getLsbD 7, busy := some { count := 143, bits := v } } [] := by
  have hnone : (0 : Byte) = v <<< (8 - 0) := by simp
  have hall : v <<< (8 - (7 + 1)) = v := by simp
  have hstart := rxRun_startBit
  have hlast := rxRun_takeBit v (v.getLsbD 6) (k := 7) (by decide)
  rw [hnone] at hstart
  rw [hall] at hlast
  calc rxLine (lineToStop v ++ more) { last := true, busy := none } []
      = _ := rxLine_cons_of_none _ _ (rxRun_idle true 7)
    _ = _ := rxLine_cons_of_none _ _ hstart
    _ = _ := rxLine_cons_of_none _ _ (rxRun_takeBit v false (k := 0) (by decide))
    _ = _ := rxLine_cons_of_none _ _ (rxRun_takeBit v _ (k := 1) (by decide))
    _ = _ := rxLine_cons_of_none _ _ (rxRun_takeBit v _ (k := 2) (by decide))
    _ = _ := rxLine_cons_of_none _ _ (rxRun_takeBit v _ (k := 3) (by decide))
    _ = _ := rxLine_cons_of_none _ _ (rxRun_takeBit v _ (k := 4) (by decide))
    _ = _ := rxLine_cons_of_none _ _ (rxRun_takeBit v _ (k := 5) (by decide))
    _ = _ := rxLine_cons_of_none _ _ (rxRun_takeBit v _ (k := 6) (by decide))
    _ = _ := rxLine_cons_of_none _ _ hlast

/-- The receiver once the line of a byte has come: the byte has completed at its stop bit (R5). -/
theorem rxLine_lineOfByte (v : Byte) (stop : Bool) :
    rxLine (lineOfByte v stop) { last := true, busy := none } [] =
      ({ last := stop, busy := none }, [{ value := v, fault := !stop }]) := by
  rw [lineOfByte_eq, rxLine_toStop, rxLine, rxRun_stopBit stop _ v 0]
  rfl

/-- A start that is high again at its middle is abandoned (R5). -/
theorem rxRun_abandon {n : Nat} (hn : n < 8) (m : Nat) :
    rxRun true (8 - n + m) { last := false, busy := some { count := n, bits := 0 } } =
      { receiver := { last := true, busy := none }, byte := none, left := 0 } := by
  rcases Nat.lt_or_eq_of_le (Nat.le_of_lt_succ hn) with hlt | rfl
  · have hbefore := rxRun_count true false (c := n) 0 (6 - n) fun i hlo hhi => by omega
    rw [show 8 - n + m = (6 - n + 1) + (m + 1) by omega, rxRun_add true _ (m + 1) (by rw [hbefore]), hbefore,
      show n + (6 - n + 1) = 7 by omega, rxRun_succ_of_sample (rx' := { last := true, busy := none }) m rfl rfl,
      rxRun_idle]
  · rw [Nat.add_comm, rxRun_succ_of_sample (rx' := { last := true, busy := none }) m rfl rfl, rxRun_idle]

theorem rxRun_lowBits {k : Nat} (hk : k ≤ 8) : rxRun false (16 + 16 * k) { last := true, busy := none } =
    { receiver := { last := false, busy := some { count := 16 * k + 15, bits := 0 } }, byte := none, left := 0 } := by
  induction k with
  | zero => exact rxRun_startBit
  | succ k ih =>
    have hk' := ih (Nat.le_of_succ_le hk)
    rw [show 16 + 16 * (k + 1) = (16 + 16 * k) + 16 by omega, rxRun_add false _ 16 (by rw [hk']), hk']
    exact rxRun_dataBit false false 0 hk

/-- A low line is a byte of 0 without its stop bit (R5). -/
theorem rxRun_break (n : Nat) : rxRun false (153 + n) { last := true, busy := none } =
    { receiver := { last := false, busy := none }, byte := some { value := 0, fault := true }, left := n } := by
  have hlow := rxRun_lowBits (k := 8) (Nat.le_refl 8)
  rw [show 153 + n = (16 + 16 * 8) + (9 + n) by omega, rxRun_add false _ (9 + n) (by rw [hlow]), hlow]
  exact rxRun_stopBit false false 0 n

/-- Settles O15: the ten bit times stretch by stretch; the start looked at again; and a low line as a start bit, eight
low data bits and a low stop bit. -/
theorem receiverTakesBytes : Obligations.ReceiverTakesBytes := by
  refine ⟨rxLine_lineOfByte, fun n m hlo hhi hsum => ?_, fun n hn => ?_⟩
  · obtain ⟨i, rfl⟩ : ∃ i, n = i + 1 := ⟨n - 1, by omega⟩
    obtain ⟨j, rfl⟩ : ∃ j, m = 8 - i + j := ⟨m - (8 - i), by omega⟩
    rw [rxLine_cons_of_none _ _ (rxRun_start hhi), rxLine_cons_of_none _ _ (rxRun_abandon hhi j)]
    rfl
  · obtain ⟨j, rfl⟩ : ∃ j, n = 153 + j := ⟨n - 153, by omega⟩
    rw [rxLine, rxRun_break]
    rfl

end Sys2Proof.Machine
end

section
/-! The reset state (R22, R33, R44, R57, R87, R117, R137, R156, R171, R188) meets every condition that the
steps keep. -/

namespace Sys2Proof.Machine

theorem Profile.default_legal (b : Band) : (Profile.default b).Legal := by
  unfold Profile.Legal
  cases b <;> decide

theorem reset_unit (b : Band) : State.reset.units.get b = TriggerUnit.reset b := by cases b <;> rfl

theorem reset_filters (b : Band) : State.reset.filters.get b = Comps.all { fast := 0, slow := 0 } := Bands.get_all _ b

theorem reset_reader (p : Port) : State.reset.readers.get p = Reader.reset := Ports.get_all _ p

theorem reset_port (p : Port) : State.reset.ports.get p = PortInterface.reset := Ports.get_all _ p

theorem reset_lane (l : LaneId) : State.reset.refiner.lanes.get l = .free := Lanes.get_all _ l

theorem reset_settled : State.reset.Settled := ⟨rfl, rfl, rfl⟩

theorem reset_settingsLegal : State.reset.SettingsLegal := by
  refine ⟨?_, fun b => ?_, fun b g hg => ?_, fun p => ?_⟩
  · unfold Station.Legal
    decide
  · rw [reset_unit]
    exact Profile.default_legal b
  · rw [reset_unit] at hg
    cases hg
  · rw [reset_reader]
    decide

theorem reset_coreKept : State.reset.CoreKept := by
  refine ⟨fun b => ?_, rfl, rfl, rfl⟩
  rw [reset_unit]
  rfl

theorem reset_unitsKept : State.reset.UnitsKept := by
  intro b
  rw [reset_unit]
  unfold TriggerUnit.Kept
  simp [TriggerUnit.reset, BandState.frozen]

theorem reset_refinerKept : State.reset.RefinerKept := by
  refine ⟨fun l => ?_, Nat.zero_le _⟩
  rw [reset_lane]
  trivial

theorem reset_enginesKept : State.reset.EnginesKept := by
  intro p
  rw [reset_port]
  trivial

theorem reset_listKept : State.reset.ListKept :=
  ⟨Nat.zero_le _, List.nodup_nil, fun _ => by decide, fun h => by cases h⟩

theorem reset_readersKept : State.reset.ReadersKept := by
  intro p
  rw [reset_reader]
  exact ⟨fun _ => ⟨rfl, fun r hr => by cases hr⟩, Nat.zero_le _, List.nodup_nil, fun v hv => by cases hv⟩

theorem reset_backlogsKept : State.reset.BacklogsKept := by
  intro p
  rw [State.backlog, reset_reader]
  rfl

theorem reset_averagesKept : State.reset.AveragesKept := by
  have hzero : AveragePair.Kept { fast := 0, slow := 0 } := by
    unfold AveragePair.Kept
    decide
  refine ⟨fun b => ?_, fun b => ?_, fun c hc => by cases hc⟩
  · rw [reset_filters]
    exact ⟨hzero, hzero, hzero⟩
  · rw [reset_unit]
    refine ⟨Nat.zero_le _, Nat.zero_le _, Nat.zero_le _, fun x hx => ?_, fun x hx => ?_⟩
    all_goals cases hx

theorem reset_not_inFlight (r : Request) : ¬ State.reset.InFlight r := by
  rintro (hqueue | ⟨l, hlane⟩)
  · cases hqueue
  · rw [reset_lane] at hlane
    cases hlane

theorem reset_requestsKept : State.reset.RequestsKept := by
  refine ⟨fun r hr => absurd hr (reset_not_inFlight r), fun l r w hl => ?_, fun l r w k hl => ?_,
    fun b => ⟨fun a hb => ?_, fun t2 hb => ?_⟩, fun _ => ⟨rfl, reset_not_inFlight, fun b => ?_⟩⟩
  · rw [reset_lane] at hl
    cases hl
  · rw [reset_lane] at hl
    cases hl
  · rw [reset_unit] at hb
    cases hb
  · rw [reset_unit] at hb
    cases hb
  · rw [reset_unit]
    rfl

theorem reset_inListOrder : State.reset.InListOrder := by
  refine ⟨List.Pairwise.nil, fun r hr => ?_, fun r hr => ?_, fun hlist => ?_, fun _ => rfl⟩
  · cases hr
  · cases hr
  · cases hlist

/-- RESET leaves no notice, so no attention line stands asserted (R178, R188). -/
theorem assertResetPort_attention (bits : Option (List Bool)) (i : PortInterface) :
    (assertResetPort bits i).attention = false := by
  simp [PortInterface.attention, assertResetPort, PortInterface.reset]

/-- Settles O13: POWER_ON and the two edges of RESET answer the reset state by definition, port by port; the conditions
and the values hold of it block by block. -/
theorem powerOnAndResetLeaveTheResetState : Obligations.PowerOnAndResetLeaveTheResetState := by
  refine ⟨fun s => rfl, fun s a b => ⟨_, rfl, rfl, ?_⟩, fun s a b => rfl,
    ⟨reset_settled, ringKept_invariant.power true rfl rfl rfl, reset_settingsLegal,
      linkKept_invariant.power true rfl rfl rfl, reset_coreKept, reset_unitsKept, reset_refinerKept,
      reset_enginesKept, reset_listKept, reset_readersKept, reset_backlogsKept, reset_averagesKept,
      reset_requestsKept, reset_inListOrder⟩,
    rfl, rfl, rfl, rfl, rfl, rfl, rfl, rfl, rfl, rfl, rfl, rfl, reset_filters, reset_unit, ?_, rfl, rfl, reset_reader,
    rfl, rfl, fun p => ?_⟩
  · rintro p bits rfl
    cases p
    all_goals
      exact ⟨rfl, assertResetPort_attention _ _, congrArg fun bits => (assertResetPort bits _).dout,
        fun _ => congrArg fun bits => (assertResetPort bits _).dout⟩
  · rintro b i rfl
    cases b <;> rfl
  · rw [reset_port]
    exact ⟨rfl, rfl, rfl, rfl, rfl⟩

end Sys2Proof.Machine
end

section
/-! Two runs side by side: a relation of two states that the elementary updates keep is kept by everything a slot write
takes, as long as the two agree on all that is read there. Nothing there reads the ports. -/

namespace Sys2Proof.Machine

/-! ### What two runs of the list must agree on -/

/-- The records of a list come, with key and kind part, from those of another, or are new; `intake` says whether the
new ones may be INTAKE records. -/
def RecordsFrom (intake : Prop) (old new : List Record) : Prop :=
  ∀ r ∈ new, (∃ x ∈ old, x.key = r.key ∧ x.detail = r.detail) ∨ ∀ y, r.detail = .intake y → intake

theorem RecordsFrom.of_subset {intake : Prop} {old new : List Record} (h : ∀ r ∈ new, r ∈ old) :
    RecordsFrom intake old new := fun r hr => .inl ⟨r, h r hr, rfl, rfl⟩

theorem RecordsFrom.of_map {intake : Prop} (old : List Record) {g : Record → Record}
    (h : ∀ r, (g r).key = r.key ∧ (g r).detail = r.detail) : RecordsFrom intake old (old.map g) := by
  intro r hr
  obtain ⟨x, hx, rfl⟩ := List.mem_map.1 hr
  exact .inl ⟨x, hx, (h x).1.symm, (h x).2.symm⟩

/-- A relation of states with one list and the same readers that the elementary updates of both keep. -/
structure RecordsAlike (intake : Prop) (R : State → State → Prop) : Prop where
  list : ∀ {s t : State}, R s t → t.list = s.list
  readers : ∀ {s t : State}, R s t → t.readers = s.readers
  raise : ∀ {s t : State} (n : Notice) (p : Port), (n = .intake → intake) → R s t → R (raise n p s) (raise n p t)
  setReader : ∀ {s t : State} (p : Port) (r : Reader), R s t → R (s.setReader p r) (t.setReader p r)
  withList : ∀ {s t : State} (l : PickList), RecordsFrom intake s.list.records l.records → R s t →
    R { s with list := l } { t with list := l }

section
variable {intake : Prop} {R : State → State → Prop} {s t : State}

theorem RecordsAlike.raise_other (h : RecordsAlike intake R) {n : Notice} (hn : n ≠ .intake) (p : Port)
    (hst : R s t) : R (Machine.raise n p s) (Machine.raise n p t) := h.raise n p (fun he => absurd he hn) hst

theorem RecordsAlike.raiseBoth (h : RecordsAlike intake R) (n : Notice) (hn : n = .intake → intake)
    (hst : R s t) : R (raiseBoth n s) (raiseBoth n t) := h.raise n .b hn (h.raise n .a hn hst)

/-- The list keeps its records and changes otherwise. -/
theorem RecordsAlike.withCounts (h : RecordsAlike intake R) {l : PickList} (hl : l.records = s.list.records)
    (hst : R s t) : R { s with list := l } { t with list := l } :=
  h.withList l (.of_subset fun r hr => by rwa [hl] at hr) hst

theorem RecordsAlike.setRecords (h : RecordsAlike intake R) {rs : List Record}
    (hrs : RecordsFrom intake s.list.records rs) (hst : R s t) : R (s.setRecords rs) (t.setRecords rs) := by
  unfold State.setRecords
  rw [h.list hst]
  exact h.withList _ hrs hst

theorem RecordsAlike.evaluateBacklog (h : RecordsAlike intake R) (p : Port) (hst : R s t) :
    R (evaluateBacklog p s) (evaluateBacklog p t) := by
  have hbacklog : t.backlog p = s.backlog p := by
    rw [State.backlog, State.backlog, h.readers hst, h.list hst]
  unfold Machine.evaluateBacklog
  dsimp only
  rw [h.readers hst, hbacklog]
  split
  · exact h.raise_other (by decide) p (h.setReader p _ hst)
  · split
    · exact h.setReader p _ hst
    · exact hst

theorem RecordsAlike.evaluateBacklogs (h : RecordsAlike intake R) (hst : R s t) :
    R (evaluateBacklogs s) (evaluateBacklogs t) := h.evaluateBacklog .b (h.evaluateBacklog .a hst)

theorem RecordsAlike.nearFullRise (h : RecordsAlike intake R) (hst : R s t) :
    R (nearFullRise s) (nearFullRise t) := by
  unfold Machine.nearFullRise
  rw [h.list hst]
  split
  · exact h.raiseBoth .nearFull (fun he => nomatch he) (h.withCounts rfl hst)
  · exact hst

theorem RecordsAlike.nearFullFall (h : RecordsAlike intake R) (hst : R s t) :
    R (nearFullFall s) (nearFullFall t) := by
  unfold Machine.nearFullFall
  rw [h.list hst]
  split
  · exact h.withCounts rfl hst
  · exact hst

theorem RecordsAlike.loseRecord (h : RecordsAlike intake R) (r : Record) (p : Port) (hst : R s t) :
    R (loseRecord r p s) (loseRecord r p t) := by
  unfold Machine.loseRecord
  dsimp only
  rw [h.readers hst]
  split
  · exact h.raise_other (by decide) p (h.setReader p _ hst)
  · exact hst

theorem RecordsAlike.loseRecordBoth (h : RecordsAlike intake R) (r : Record) (hst : R s t) :
    R (loseRecordBoth r s) (loseRecordBoth r t) :=
  h.evaluateBacklogs (h.loseRecord r .b (h.loseRecord r .a hst))

theorem RecordsAlike.evictIfFull (h : RecordsAlike intake R) (hst : R s t) :
    R (evictIfFull s) (evictIfFull t) := by
  unfold Machine.evictIfFull
  rw [h.list hst]
  split
  · rename_i head more hrecords
    split
    · exact h.loseRecordBoth _ (h.setRecords (.of_subset fun r hr => by
        rw [hrecords]
        exact List.mem_cons_of_mem _ hr) hst)
    · exact hst
  · exact hst

theorem mem_placeRecord {new r : Record} {rs : List Record} : r ∈ placeRecord new rs ↔ r = new ∨ r ∈ rs := by
  induction rs with
  | nil => simp [placeRecord]
  | cons x more ih =>
    unfold placeRecord
    split
    · exact List.mem_cons
    · rw [List.mem_cons, ih, List.mem_cons, or_left_comm]

/-- An insertion places one record, whose kind part is the one handed over (R122). -/
theorem RecordsAlike.insertRecord (h : RecordsAlike intake R) (key : Index) {d : Detail}
    (hd : ∀ y, d = .intake y → intake) (hst : R s t) : R (insertRecord key d s) (insertRecord key d t) := by
  have hevicted := h.evictIfFull hst
  unfold Machine.insertRecord
  dsimp only
  rw [h.list hevicted, h.list hst]
  have hinserted := h.withList
    { (Machine.evictIfFull s).list with
      records := placeRecord
        { serial := freeSerial ((Machine.evictIfFull s).list.records.map Record.serial) Config.listDepth
            (Machine.evictIfFull s).list.nextSerial
          key := key, detail := d, released := false, marks := Ports.all false } (Machine.evictIfFull s).list.records
      nextSerial := freeSerial ((Machine.evictIfFull s).list.records.map Record.serial) Config.listDepth
        (Machine.evictIfFull s).list.nextSerial + 1 }
    (fun r hr => (mem_placeRecord.1 hr).elim (fun he => .inr (he ▸ hd)) fun hr => .inl ⟨r, hr, rfl, rfl⟩) hevicted
  split
  · exact h.nearFullRise hinserted
  · exact hinserted

theorem RecordsAlike.removalTest (h : RecordsAlike intake R) (f : Record → Bool) (hst : R s t) :
    R (removalTest f s) (removalTest f t) := by
  have hremovable : t.removable = s.removable := by
    funext r
    rw [State.removable, State.removable, h.readers hst]
  unfold Machine.removalTest
  rw [h.list hst, hremovable]
  exact h.nearFullFall (h.setRecords (.of_subset fun r hr => List.mem_of_mem_filter hr) hst)

theorem RecordsAlike.foldl {α : Type} {f : State → α → State} (xs : List α)
    (hf : ∀ x s t, R s t → R (f s x) (f t x)) (hst : R s t) : R (xs.foldl f s) (xs.foldl f t) := by
  induction xs generalizing s t with
  | nil => exact hst
  | cons x xs ih => exact ih (hf x s t hst)

theorem RecordsAlike.retireRecords (h : RecordsAlike intake R) (n : Index) (hst : R s t) :
    R (retireRecords n s) (retireRecords n t) := by
  unfold Machine.retireRecords
  dsimp only
  rw [h.list hst]
  split
  · exact hst
  · exact h.nearFullFall (RecordsAlike.foldl _ (fun x _ _ => h.loseRecordBoth x)
      (h.setRecords (.of_subset fun r hr => List.mem_of_mem_filter hr) hst))

theorem RecordsAlike.releaseRecords (h : RecordsAlike intake R) (n : Index) (hst : R s t) :
    R (releaseRecords n s) (releaseRecords n t) := by
  unfold Machine.releaseRecords
  dsimp only
  rw [h.list hst]
  split
  · exact hst
  · exact h.evaluateBacklogs (h.removalTest _ (h.setRecords (.of_map _ fun r => by split <;> exact ⟨rfl, rfl⟩) hst))

end

/-! ### What two runs of a slot write must agree on -/

/-- The state with its ports replaced. -/
def State.setPorts (s : State) (q : Ports PortInterface) : State := { s with ports := q }

theorem State.setPorts_owed (s : State) (q : Ports PortInterface) : (s.setPorts q).owed = s.owed := rfl
theorem State.setPorts_units (s : State) (q : Ports PortInterface) : (s.setPorts q).units = s.units := rfl
theorem State.setPorts_refiner (s : State) (q : Ports PortInterface) : (s.setPorts q).refiner = s.refiner := rfl
theorem State.setPorts_settings (s : State) (q : Ports PortInterface) : (s.setPorts q).settings = s.settings := rfl
theorem State.setPorts_tmu (s : State) (q : Ports PortInterface) : (s.setPorts q).tmu = s.tmu := rfl
theorem State.setPorts_newestOr (s : State) (q : Ports PortInterface) : (s.setPorts q).newestOr = s.newestOr := rfl
theorem State.setPorts_newestIndex (s : State) (q : Ports PortInterface) :
    (s.setPorts q).newestIndex = s.newestIndex := rfl
theorem State.setPorts_unitDue (s : State) (q : Ports PortInterface) (b : Band) :
    (s.setPorts q).unitDue b = s.unitDue b := rfl
theorem State.setPorts_watchDue (s : State) (q : Ports PortInterface) : (s.setPorts q).watchDue = s.watchDue := rfl
theorem State.setPorts_holdoverDue (s : State) (q : Ports PortInterface) :
    (s.setPorts q).holdoverDue = s.holdoverDue := rfl
theorem State.setPorts_refinerIdle (s : State) (q : Ports PortInterface) :
    (s.setPorts q).refinerIdle = s.refinerIdle := rfl
theorem State.setPorts_listIdle (s : State) (q : Ports PortInterface) : (s.setPorts q).listIdle = s.listIdle := rfl

/-- A relation of states that differ in their ports alone, kept by the elementary updates of both. -/
structure Alike (intake : Prop) (R : State → State → Prop) : Prop extends RecordsAlike intake R where
  same : ∀ {s t : State}, R s t → ∃ q, t = s.setPorts q
  rest : ∀ {s s' t : State}, R s t → s'.list = s.list → s'.readers = s.readers → s'.ports = s.ports →
    R s' (s'.setPorts t.ports)

section
variable {intake : Prop} {R : State → State → Prop} {s t : State}

theorem Alike.setUnit (h : Alike intake R) (b : Band) (u : TriggerUnit) (hst : R s t) :
    R (s.setUnit b u) (t.setUnit b u) := by
  obtain ⟨q, rfl⟩ := h.same hst
  exact h.rest hst rfl rfl rfl

theorem Alike.setOwed (h : Alike intake R) (o : Owed) (hst : R s t) : R (s.setOwed o) (t.setOwed o) := by
  obtain ⟨q, rfl⟩ := h.same hst
  exact h.rest hst rfl rfl rfl

theorem Alike.setTmu (h : Alike intake R) (x : TimeMarkUnit) (hst : R s t) : R (s.setTmu x) (t.setTmu x) := by
  obtain ⟨q, rfl⟩ := h.same hst
  exact h.rest hst rfl rfl rfl

theorem Alike.setIntake (h : Alike intake R) (f : FrameIntake) (hst : R s t) :
    R (s.setIntake f) (t.setIntake f) := by
  obtain ⟨q, rfl⟩ := h.same hst
  exact h.rest hst rfl rfl rfl

theorem Alike.withRefiner (h : Alike intake R) (x : Refiner) (hst : R s t) :
    R { s with refiner := x } { t with refiner := x } := by
  obtain ⟨q, rfl⟩ := h.same hst
  exact h.rest hst rfl rfl rfl

theorem Alike.setLane (h : Alike intake R) (l : LaneId) (v : Lane) (hst : R s t) :
    R (s.setLane l v) (t.setLane l v) := by
  obtain ⟨q, rfl⟩ := h.same hst
  exact h.rest hst rfl rfl rfl

theorem Alike.setQueue (h : Alike intake R) (x : List Request) (hst : R s t) : R (s.setQueue x) (t.setQueue x) := by
  obtain ⟨q, rfl⟩ := h.same hst
  exact h.rest hst rfl rfl rfl

theorem Alike.launchLoop (h : Alike intake R) (fuel : Nat) (hst : R s t) :
    R (launchLoop fuel s) (launchLoop fuel t) := by
  induction fuel generalizing s t with
  | zero => exact hst
  | succ fuel ih =>
    obtain ⟨q, rfl⟩ := h.same hst
    unfold Machine.launchLoop
    rw [State.setPorts_refiner, State.setPorts_newestIndex, State.setPorts_settings]
    split
    · split
      · exact ih (h.withRefiner _ hst)
      · exact hst
    · exact hst

theorem Alike.launchExamination (h : Alike intake R) (hst : R s t) :
    R (launchExamination s) (launchExamination t) := by
  obtain ⟨q, rfl⟩ := h.same hst
  unfold Machine.launchExamination
  rw [State.setPorts_refiner, State.setPorts_settings]
  split
  · exact h.launchLoop _ hst
  · exact hst

theorem Alike.handCoarse (h : Alike intake R) (shed : Bool) (r : Request) (hst : R s t) :
    R (handCoarse shed r s) (handCoarse shed r t) := h.insertRecord _ (fun _ he => nomatch he) hst

theorem Alike.offerRequest (h : Alike intake R) (r : Request) (hst : R s t) :
    R (offerRequest r s) (offerRequest r t) := by
  obtain ⟨q, rfl⟩ := h.same hst
  unfold Machine.offerRequest
  rw [State.setPorts_refiner]
  split
  · exact h.launchExamination (h.setQueue _ hst)
  · exact h.handCoarse true r hst

theorem Alike.truncateBand (h : Alike intake R) (b : Band) (t2 : Index) (hst : R s t) :
    R (truncateBand b t2 s) (truncateBand b t2 t) := by
  obtain ⟨q, rfl⟩ := h.same hst
  exact h.withRefiner _ hst

theorem Alike.completeLane (h : Alike intake R) (l : LaneId) (hst : R s t) :
    R (completeLane l s) (completeLane l t) := by
  obtain ⟨q, rfl⟩ := h.same hst
  unfold Machine.completeLane
  rw [State.setPorts_refiner]
  split
  · exact h.launchExamination (h.insertRecord _ (fun _ he => nomatch he) (h.setLane l .free hst))
  all_goals exact hst

theorem Alike.expireLane (h : Alike intake R) (n : Index) (l : LaneId) (hst : R s t) :
    R (expireLane n l s) (expireLane n l t) := by
  obtain ⟨q, rfl⟩ := h.same hst
  unfold Machine.expireLane
  rw [State.setPorts_refiner]
  split
  · split
    · exact h.handCoarse false _ (h.setLane l .free hst)
    · exact hst
  · exact hst

theorem Alike.expireQueue (h : Alike intake R) (n : Index) (hst : R s t) :
    R (expireQueue n s) (expireQueue n t) := by
  obtain ⟨q, rfl⟩ := h.same hst
  exact RecordsAlike.foldl _ (fun r _ _ => h.handCoarse false r) (h.setQueue _ hst)

theorem Alike.expiryStep (h : Alike intake R) (n : Index) (hst : R s t) : R (expiryStep n s) (expiryStep n t) :=
  h.expireQueue n (h.expireLane n .l3 (h.expireLane n .l2 (h.expireLane n .l1 (h.expireLane n .l0 hst))))

theorem Alike.scanStartStep (h : Alike intake R) (n : Index) (hst : R s t) :
    R (scanStartStep n s) (scanStartStep n t) := by
  obtain ⟨q, rfl⟩ := h.same hst
  exact h.withRefiner _ hst

theorem Alike.refinerExpiry (h : Alike intake R) (hst : R s t) : R (refinerExpiry s) (refinerExpiry t) := by
  obtain ⟨q, rfl⟩ := h.same hst
  unfold Machine.refinerExpiry
  rw [State.setPorts_owed, State.setPorts_newestOr]
  split
  · exact h.setOwed _ (h.expiryStep _ hst)
  all_goals exact hst

theorem Alike.refinerScanStart (h : Alike intake R) (hst : R s t) :
    R (refinerScanStart s) (refinerScanStart t) := by
  have hexpired := h.refinerExpiry hst
  unfold Machine.refinerScanStart
  obtain ⟨q, hq⟩ := h.same hexpired
  rw [hq] at hexpired ⊢
  dsimp only
  rw [State.setPorts_owed, State.setPorts_newestOr]
  split
  · exact h.setOwed _ (h.scanStartStep _ hexpired)
  all_goals exact hexpired

theorem Alike.refinerFinish (h : Alike intake R) (hst : R s t) : R (refinerFinish s) (refinerFinish t) := by
  have hscanned := h.refinerScanStart hst
  unfold Machine.refinerFinish
  obtain ⟨q, hq⟩ := h.same hscanned
  rw [hq] at hscanned ⊢
  dsimp only
  rw [State.setPorts_owed]
  split
  · exact h.setOwed _ (h.launchExamination hscanned)
  all_goals exact hscanned

theorem Alike.takeUp (h : Alike intake R) (n : Index) (hst : R s t) : R (takeUp n s) (takeUp n t) := by
  obtain ⟨q, rfl⟩ := h.same hst
  exact h.withCounts rfl hst

theorem Alike.listRetire (h : Alike intake R) (hst : R s t) : R (listRetire s) (listRetire t) := by
  obtain ⟨q, rfl⟩ := h.same hst
  unfold Machine.listRetire
  rw [State.setPorts_owed, State.setPorts_newestOr]
  split
  · exact h.setOwed _ (h.retireRecords _ (h.takeUp _ hst))
  all_goals exact hst

theorem Alike.listFinish (h : Alike intake R) (hst : R s t) : R (listFinish s) (listFinish t) := by
  have hretired := h.listRetire hst
  unfold Machine.listFinish
  obtain ⟨q, hq⟩ := h.same hretired
  rw [hq] at hretired ⊢
  dsimp only
  rw [State.setPorts_owed, State.setPorts_newestOr]
  split
  · exact h.setOwed _ (h.releaseRecords _ hretired)
  all_goals exact hretired

theorem Alike.changeTiming (h : Alike intake R) (x : TimingState) (c : Nat) (hst : R s t) :
    R (changeTiming x c s) (changeTiming x c t) := by
  obtain ⟨q, rfl⟩ := h.same hst
  exact h.raiseBoth .timing (fun he => nomatch he)
    (h.insertRecord _ (fun _ he => nomatch he) (h.setTmu _ hst))

theorem Alike.timingFinish (h : Alike intake R) (hst : R s t) : R (timingFinish s) (timingFinish t) := by
  obtain ⟨q, rfl⟩ := h.same hst
  unfold Machine.timingFinish
  rw [State.setPorts_owed, State.setPorts_watchDue, State.setPorts_holdoverDue, State.setPorts_tmu]
  split
  · split
    · exact h.setOwed _ (h.changeTiming _ _ hst)
    · split
      · exact h.setOwed _ (h.changeTiming _ _ hst)
      · exact h.setOwed _ hst
  · exact hst

theorem Alike.handClose (h : Alike intake R) (b : Band) (u : TriggerUnit) (c : CloseCause) (hst : R s t) :
    R (handClose b u c s) (handClose b u c t) := by
  obtain ⟨q, rfl⟩ := h.same hst
  exact h.insertRecord _ (fun _ he => nomatch he) hst

theorem Alike.unitGapRun (h : Alike intake R) (b : Band) (hst : R s t) : R (unitGapRun b s) (unitGapRun b t) := by
  obtain ⟨q, rfl⟩ := h.same hst
  unfold Machine.unitGapRun
  dsimp only
  rw [State.setPorts_units]
  split
  · exact hst
  · exact h.handClose b _ _ (h.setUnit b _ hst)
  all_goals exact h.setUnit b _ hst

theorem Alike.unitPrimary (h : Alike intake R) (b : Band) (hst : R s t) :
    R (unitPrimary b s) (unitPrimary b t) := by
  obtain ⟨q, rfl⟩ := h.same hst
  unfold Machine.unitPrimary
  dsimp only
  rw [State.setPorts_units, State.setPorts_newestOr, State.setPorts_settings, State.setPorts_tmu]
  split
  · exact h.offerRequest _ (h.setUnit b _ hst)
  · exact h.setUnit b _ hst

theorem Alike.unitStacked (h : Alike intake R) (b : Band) (hst : R s t) :
    R (unitStacked b s) (unitStacked b t) := by
  obtain ⟨q, rfl⟩ := h.same hst
  unfold Machine.unitStacked
  dsimp only
  rw [State.setPorts_units, State.setPorts_newestOr, State.setPorts_settings, State.setPorts_tmu]
  split
  · exact h.offerRequest _ (h.truncateBand b _ (h.setUnit b _ hst))
  · exact h.setUnit b _ hst

theorem Alike.unitEnd (h : Alike intake R) (b : Band) (c : CloseCause) (w : Bool) (hst : R s t) :
    R (unitEnd b c w s) (unitEnd b c w t) := by
  obtain ⟨q, rfl⟩ := h.same hst
  exact h.handClose b _ c (h.setUnit b _ hst)

theorem Alike.unitAct (h : Alike intake R) (d : UnitDue) (b : Band) (hst : R s t) :
    R (unitAct d b s) (unitAct d b t) := by
  obtain ⟨q, rfl⟩ := h.same hst
  cases d with
  | nothing => exact hst
  | gapRun => exact h.unitGapRun b hst
  | primary => exact h.unitPrimary b hst
  | calDeclared => exact h.unitEnd b _ _ hst
  | fell => exact h.unitEnd b _ _ hst
  | maxDur => exact h.unitEnd b _ _ hst
  | stacked => exact h.unitStacked b hst
  | _ => exact h.setUnit b _ hst

theorem Alike.unitFinish (h : Alike intake R) (b : Band) (hst : R s t) : R (unitFinish b s) (unitFinish b t) := by
  have hacted := h.unitAct (s.unitDue b) b hst
  obtain ⟨q, rfl⟩ := h.same hst
  obtain ⟨q', hq'⟩ := h.same hacted
  unfold Machine.unitFinish
  dsimp only
  rw [State.setPorts_owed, State.setPorts_unitDue]
  split
  · rw [hq'] at hacted ⊢
    exact h.setOwed _ hacted
  · exact hst

theorem Alike.unitPlain (h : Alike intake R) (b : Band) (hst : R s t) : R (unitPlain b s) (unitPlain b t) := by
  have hfinished := h.unitFinish b hst
  obtain ⟨q, rfl⟩ := h.same hst
  unfold Machine.unitPlain
  rw [State.setPorts_unitDue]
  split
  · exact hst
  · exact hfinished

theorem Alike.finishRefiner (h : Alike intake R) (hst : R s t) : R (finishRefiner s) (finishRefiner t) := by
  obtain ⟨q, rfl⟩ := h.same hst
  unfold Machine.finishRefiner
  rw [State.setPorts_owed]
  split
  · exact h.refinerFinish hst
  · exact h.refinerFinish hst
  all_goals exact hst

theorem Alike.finishList (h : Alike intake R) (hst : R s t) : R (finishList s) (finishList t) := by
  obtain ⟨q, rfl⟩ := h.same hst
  unfold Machine.finishList
  rw [State.setPorts_owed]
  split
  · exact h.listFinish hst
  all_goals exact hst

theorem Alike.finishBegun (h : Alike intake R) (hst : R s t) : R (finishBegun s) (finishBegun t) := by
  rw [finishBegun_eq, finishBegun_eq]
  exact h.finishList (h.finishRefiner hst)

theorem Alike.settleOwed (h : Alike intake R) (hst : R s t) : R (settleOwed s) (settleOwed t) :=
  h.setOwed _ (h.timingFinish (h.listFinish (h.refinerFinish
    (h.unitFinish .b2 (h.unitFinish .b1 (h.unitFinish .b0 (h.finishBegun hst)))))))

/-! ### The slot write -/

theorem Alike.takeRefiner (h : Alike intake R) (hst : R s t) : R (takeRefiner s) (takeRefiner t) := by
  obtain ⟨q, rfl⟩ := h.same hst
  unfold Machine.takeRefiner
  rw [State.setPorts_refinerIdle]
  split
  · exact h.refinerFinish hst
  · exact hst

theorem Alike.takeList (h : Alike intake R) (hst : R s t) : R (takeList s) (takeList t) := by
  obtain ⟨q, rfl⟩ := h.same hst
  unfold Machine.takeList
  rw [State.setPorts_listIdle]
  split
  · exact h.listFinish hst
  · exact hst

theorem Alike.takeTiming (h : Alike intake R) (hst : R s t) : R (takeTiming s) (takeTiming t) := by
  obtain ⟨q, rfl⟩ := h.same hst
  unfold Machine.takeTiming
  rw [State.setPorts_watchDue, State.setPorts_holdoverDue]
  split
  · exact hst
  · exact h.timingFinish hst

theorem Alike.takePlain (h : Alike intake R) (hst : R s t) : R (takePlain s) (takePlain t) :=
  h.takeTiming (h.takeList (h.takeRefiner
    (h.unitPlain .b2 (h.unitPlain .b1 (h.unitPlain .b0 hst)))))

theorem Alike.completeOverdueLane (h : Alike intake R) (l : LaneId) (hst : R s t) :
    R (completeOverdueLane l s) (completeOverdueLane l t) := by
  obtain ⟨q, rfl⟩ := h.same hst
  unfold Machine.completeOverdueLane
  rw [State.setPorts_refiner]
  split
  · split
    · exact h.completeLane l hst
    · exact hst
  all_goals exact hst

theorem Alike.completeOverdue (h : Alike intake R) (hst : R s t) : R (completeOverdue s) (completeOverdue t) :=
  h.completeOverdueLane .l3 (h.completeOverdueLane .l2 (h.completeOverdueLane .l1 (h.completeOverdueLane .l0 hst)))

theorem Alike.writeCore (h : Alike intake R) (k : SlotKind) (r : Reading) (hst : R s t) :
    R (writeCore k r s) (writeCore k r t) := by
  obtain ⟨q, rfl⟩ := h.same hst
  exact h.rest hst rfl rfl rfl

/-- Two runs of one slot write stay side by side: nothing in it reads the ports, or hands over an INTAKE record. -/
theorem Alike.writeSlot (h : Alike intake R) (k : SlotKind) (r : Reading) (hst : R s t) :
    R (writeSlot k r s) (writeSlot k r t) :=
  h.takePlain (h.writeCore k r (h.completeOverdue (h.settleOwed hst)))

end

/-! ### No INTAKE record and no INTAKE notice comes of a slot write (R19) -/

/-- A state makes no INTAKE record and no INTAKE notice that another has not. -/
structure NoNewIntake (s t : State) : Prop where
  records : ∀ key y, t.HasRecord key (.intake y) → s.HasRecord key (.intake y)
  notices : ∀ p, t.Noticed .intake p → s.Noticed .intake p

theorem NoNewIntake.refl (s : State) : NoNewIntake s s := ⟨fun _ _ => id, fun _ => id⟩

theorem NoNewIntake.of_same {s t u : State} (h : NoNewIntake s t) (hlist : u.list.records = t.list.records)
    (hports : u.ports = t.ports) : NoNewIntake s u := by
  refine ⟨fun key y hu => h.records key y ?_, fun p hu => h.notices p ?_⟩
  · rwa [State.HasRecord, hlist] at hu
  · rwa [State.Noticed, hports] at hu

theorem NoNewIntake.setIntake {s t : State} (h : NoNewIntake s t) (f : FrameIntake) :
    NoNewIntake s (t.setIntake f) := h.of_same rfl rfl

theorem NoNewIntake.raise {s t : State} (h : NoNewIntake s t) {n : Notice} (hn : n ≠ .intake) (p : Port) :
    NoNewIntake s (raise n p t) := by
  refine ⟨h.records, fun q hq => h.notices q ?_⟩
  simp only [State.Noticed, Machine.raise, State.setPort_ports, Ports.get_set] at hq ⊢
  split at hq
  · rename_i heq
    subst heq
    simpa [noticeIn_noticeAdd, hn.symm] using hq
  · exact hq

theorem NoNewIntake.withList {s t : State} {l : PickList} (h : NoNewIntake s t)
    (hl : RecordsFrom False t.list.records l.records) : NoNewIntake s { t with list := l } := by
  refine ⟨fun key y => ?_, h.notices⟩
  rintro ⟨r, hr, rfl, hy⟩
  rcases hl r hr with ⟨x, hx, hkey, hdetail⟩ | hnew
  · exact h.records _ y ⟨x, hx, hkey, hdetail.trans hy⟩
  · exact (hnew y hy).elim

/-- A state beside itself, with no INTAKE item that the first state has not. -/
theorem noNewIntake_alike (s₀ : State) : Alike False fun s t => t = s ∧ NoNewIntake s₀ s where
  list h := by rw [h.1]
  readers h := by rw [h.1]
  raise n p hn h := ⟨by rw [h.1], h.2.raise hn p⟩
  setReader p r h := ⟨by rw [h.1], h.2.of_same rfl rfl⟩
  withList l hl h := ⟨by rw [h.1], h.2.withList hl⟩
  same {s t} h := ⟨s.ports, h.1⟩
  rest h hlist hreaders hports := by
    obtain ⟨rfl, hintake⟩ := h
    exact ⟨by rw [← hports]; rfl, hintake.of_same (by rw [hlist]) hports⟩

theorem NoNewIntake.writeSlot {s t : State} (h : NoNewIntake s t) (k : SlotKind) (r : Reading) :
    NoNewIntake s (writeSlot k r t) :=
  ((noNewIntake_alike s).writeSlot k r ⟨rfl, h⟩).2

/-! ### A pending response passes through (R173) -/

/-- The response pending at a port, put in place before or after the work, comes to the same. -/
theorem respond_alike (p : Port) (r : Response) : Alike True fun s t => t = respond p r s where
  list h := by rw [h]; rfl
  readers h := by rw [h]; rfl
  raise n q _ h := by
    rw [h]
    cases p <;> cases q <;> rfl
  setReader q x h := by rw [h]; rfl
  withList l _ h := by rw [h]; rfl
  same h := ⟨_, h⟩
  rest {s s' t} h _ _ hports := by
    rw [h]
    show s'.setPorts (s.ports.set p { s.ports.get p with response := r }) = _
    rw [← hports]
    rfl

end Sys2Proof.Machine
end

section
/-! Frames at the link state machine and the timers at their instants (sections 1.2 to 1.5): each as the slot writes it
makes, with the INTAKE records and notices of R19. -/

namespace Sys2Proof.Machine

/-! ### An INTAKE record at the newest slot (R19) -/

theorem insertRecord_hasRecord (key : Index) (d : Detail) (s : State) : (insertRecord key d s).HasRecord key d := by
  unfold insertRecord State.HasRecord
  dsimp only
  split
  · rw [nearFullRise_records]
    exact ⟨_, mem_placeRecord.2 (.inl rfl), rfl, rfl⟩
  · exact ⟨_, mem_placeRecord.2 (.inl rfl), rfl, rfl⟩

theorem raiseBoth_noticed (n : Notice) (s : State) (p : Port) : (raiseBoth n s).Noticed n p := by
  cases p <;> simp [State.Noticed, raiseBoth, raise, Ports.set, Ports.get, noticeIn_noticeAdd]

/-- After a slot write the record is keyed at the index written. -/
theorem intakeRecord_writeSlot (x : IntakeType) (k : SlotKind) (r : Reading) (s : State) :
    intakeRecord x (writeSlot k r s) =
      raise .intake .b (raise .intake .a (insertRecord s.intake.nextIndex (.intake x) (writeSlot k r s))) := by
  rw [intakeRecord, writeSlot_newestOr, raiseBoth]

theorem intakeRecord_hasRecord (x : IntakeType) (k : SlotKind) (r : Reading) (s : State) :
    (intakeRecord x (writeSlot k r s)).HasRecord s.intake.nextIndex (.intake x) := by
  rw [State.HasRecord, intakeRecord, writeSlot_newestOr, raiseBoth_list]
  exact insertRecord_hasRecord _ _ _

theorem intakeRecord_noticed (x : IntakeType) (s : State) (p : Port) : (intakeRecord x s).Noticed .intake p :=
  raiseBoth_noticed .intake _ p

theorem SameStream.wroteSlot {s t : State} (h : SameStream s t) {i : Index} {a : Nat} {r : Reading} {d g : Bool}
    (hs : s.WroteSlot i a r d g) : t.WroteSlot i a r d g := by
  rwa [State.WroteSlot, h.ring]

/-! ### A complete frame (R8) -/

section
variable {s : State} {bytes : List LinkByte} {e : Nat}

theorem complete_of_twelve (ha : s.intake.assembler = .assembling bytes e) (hb : bytes.length = 12) :
    s.intake.assembler.complete = some bytes := by
  rw [ha, Assembler.complete, hb]
  rfl

/-- With nothing in hand, FRAME judges the complete frame, and writes what is not held of the slots it then has. -/
theorem judgeComplete_of_twelve (ha : s.intake.assembler = .assembling bytes e) (hb : bytes.length = 12)
    (hin : s.intake.inHand = none) : judgeComplete s = judge bytes s := by
  rw [judgeComplete, complete_of_twelve ha hb]
  dsimp only
  rw [finishFrame_of_none hin]

theorem judge_good {g : GoodFrame} (hg : judgeFrame bytes = some g) :
    judge bytes s = goodFrame g (s.setIntake { s.intake with assembler := .hunting }) := by
  rw [judge, hg]

theorem judge_damaged (hg : judgeFrame bytes = none) :
    judge bytes s = damagedFrame (s.setIntake { s.intake with assembler := .hunting }) := by
  rw [judge, hg]

theorem exec_frame_of_none {hold : Nat} (h : (judgeComplete s).intake.inHand = none) :
    exec (.frame hold) s = .next (judgeComplete s) := by
  show Host.Outcome.next (writeHeldSlots ((judgeComplete s).slotsInHand - hold) (judgeComplete s)) = _
  rw [State.slotsInHand, h]
  dsimp only
  rw [Nat.zero_sub]
  rfl

/-- Settles O30: outside RUNNING the frame is one slot write, which brings no INTAKE item of its own; from LOST the END
record and the notice follow it. -/
theorem goodFramesBringTheLinkToRunning : Obligations.GoodFramesBringTheLinkToRunning := by
  intro s written bytes e hold g ha hb hg hin hlink hwritten
  have hjudged : judgeComplete s = goodFrame g (s.setIntake { s.intake with assembler := .hunting }) := by
    rw [judgeComplete_of_twelve ha hb hin, judge_good hg]
  have hintake : written.intake = _ := hwritten ▸ writeSlot_intake _ _ _
  have hslot : written.WroteSlot s.intake.nextIndex s.clock.now g.reading false false :=
    hwritten ▸ writeSlot_wroteSlot _ _ _
  have hsettings : written.settings = s.settings := hwritten ▸ writeSlot_settings _ _ _
  have hnow : written.clock.now = s.clock.now := hwritten ▸ writeSlot_now _ _ _
  have hquiet : NoNewIntake s written := by
    rw [hwritten]
    exact ((NoNewIntake.refl s).setIntake _).writeSlot .good g.reading
  cases hl : s.intake.link with
  | running => exact absurd hl hlink
  | searching =>
    have hnext : judgeComplete s = written := by
      rw [hjudged, hwritten, goodFrame, State.setIntake_intake, hl]
      rfl
    refine ⟨written, ?_, fun _ => ⟨rfl, hquiet.records, hquiet.notices⟩, fun h => (nomatch h), hintake, hslot,
      hsettings, hnow⟩
    rw [exec_frame_of_none (by rw [hnext, hintake]; exact hin), hnext]
  | lost =>
    have hnext : judgeComplete s = intakeRecord .ends written := by
      rw [hjudged, hwritten, goodFrame, State.setIntake_intake, hl]
      rfl
    have hframe := intakeRecord_frame .ends written
    refine ⟨intakeRecord .ends written, ?_, fun h => (nomatch h), fun _ => ⟨?_, ?_, intakeRecord_noticed _ _⟩,
      hframe.intake.trans hintake, hframe.sameStream.wroteSlot hslot, hframe.settings.trans hsettings,
      hframe.sameStream.now.trans hnow⟩
    · rw [exec_frame_of_none (by rw [hnext, hframe.intake, hintake]; exact hin), hnext]
    · rw [hwritten]
      exact intakeRecord_writeSlot _ _ _ _
    · rw [hwritten]
      exact intakeRecord_hasRecord _ _ _ _

theorem damagedFrame_of_not_running (h : s.intake.link ≠ .running) : damagedFrame s = s := by
  rw [damagedFrame]
  cases hl : s.intake.link with
  | running => exact absurd hl h
  | _ => rfl

/-- In RUNNING a damaged frame is one DAMAGED slot, and the expected counter goes on (R12, R16). -/
theorem damagedFrame_of_running {expected : Byte} {last : Reading} (h : s.intake.link = .running)
    (hexpected : s.intake.expected = some expected) (hlast : s.intake.lastGood = some last) :
    damagedFrame s = writeSlot .damaged last (s.setIntake { s.intake with expected := some (expected + 1) }) := by
  rw [damagedFrame, h, hexpected, State.lastReading_of_lastGood hlast]
  rfl

/-- Settles O32: a damaged frame is dropped outside RUNNING, and is one slot write in it. -/
theorem damagedFramesKeepTheirPlace : Obligations.DamagedFramesKeepTheirPlace := by
  intro s bytes e hold ha hb hg hin
  have hjudged : judgeComplete s = damagedFrame (s.setIntake { s.intake with assembler := .hunting }) := by
    rw [judgeComplete_of_twelve ha hb hin, judge_damaged hg]
  refine ⟨fun hlink => ?_, fun expected last hlink hexpected hlast => ⟨_, ?_, rfl, ?_, ?_, ?_, ?_⟩⟩
  · have hnext := hjudged.trans (damagedFrame_of_not_running hlink)
    rw [exec_frame_of_none (by rw [hnext]; exact hin), hnext]
  · have hnext := hjudged.trans (damagedFrame_of_running hlink hexpected hlast)
    rw [exec_frame_of_none (by rw [hnext, writeSlot_inHand]; exact hin), hnext]
    rfl
  · exact writeSlot_intake _ _ _
  · exact writeSlot_wroteSlot _ _ _
  · exact writeSlot_settings _ _ _
  · exact writeSlot_now _ _ _

end

/-! ### The timers at their instants (R8, R10, R17, R18) -/

section
variable {s : State} {d : Nat}

theorem State.waited_of_quiet (hs : s.Settled) (hd : s.clock.now ≤ d) (hsample : s.clock.now ≤ s.intake.nextSample)
    (hq : s.QuietUntil d) : advanceTo d s = s.waited d := by
  rcases Nat.lt_or_eq_of_le hd with hlt | rfl
  · exact advanceTo_of_quiet hs hlt hq
  · rw [State.waited_now hsample, advanceTo, if_neg (Nat.lt_irrefl _)]

theorem State.waited_timer (t : Nat) (k : Timer) : (s.waited t).timer k = s.timer k := by
  cases k <;> rfl

/-- Time passes quietly up to a running timer's instant, and the timer expires. -/
theorem runTimer_of_quiet (hs : s.Settled) (hd : s.clock.now ≤ d) (hsample : s.clock.now ≤ s.intake.nextSample)
    (hq : s.QuietUntil d) {k : Timer} (hk : s.timer k = some d) : runTimer k s = expireTimer k (s.waited d) := by
  have hwaited := State.waited_of_quiet hs hd hsample hq
  rw [runTimer, settle_of_settled hs, hk]
  dsimp only
  rw [hwaited, if_pos ((State.waited_timer d k).trans hk)]

end

/-- The link enters LOST with its GAP slot and the BEGIN record (R17, R19, R20). -/
theorem enterLost_eq {s : State} {last : Reading} (hlast : s.intake.lastGood = some last) :
    enterLost s = intakeRecord .begins (writeSlot .gap last (s.setIntake
      { s.intake with
        link := .lost, expected := none, linkTimer := none, gapSlotTimer := some (s.clock.now + s.interval) })) := by
  exact congrArg (intakeRecord .begins) (writeGap_of_lastGood hlast)

/-- Settles O33: up to the instant time passes quietly; then the expiry is the damaged frame, the way to LOST or the
GAP slot of its timer. -/
theorem timersExpire : Obligations.TimersExpire := by
  intro s u d hs hd hsample hq hu
  subst hu
  have hrun : ∀ {k t}, s.timer k = some d → expireTimer k (s.waited d) = t →
      (.next (runTimer k s) : Host.Outcome State Fault Refusal) = .next t := fun hk ht => by
    rw [runTimer_of_quiet hs hd hsample hq hk, ht]
  refine ⟨fun hk hlink => ?_, fun expected last hk hlink hexpected hlast => ?_, fun last hk hlink hlast => ?_,
    fun last hk hlink hlast => ?_⟩
  · exact hrun hk (damagedFrame_of_not_running hlink)
  · exact ⟨_, hrun hk (damagedFrame_of_running hlink hexpected hlast), rfl,
      writeSlot_intake _ _ _, writeSlot_wroteSlot _ _ _, writeSlot_now _ _ _, writeSlot_settings _ _ _⟩
  · have hexpired : expireTimer .link (s.waited d) = enterLost (s.waited d) := by
      rw [expireTimer, expireLink, show (s.waited d).intake.link = .running from hlink]
    refine ⟨_, hrun hk (hexpired.trans (enterLost_eq hlast)), intakeRecord_writeSlot _ _ _ _, ?_, ?_, ?_, ?_,
      intakeRecord_hasRecord _ _ _ _, intakeRecord_noticed _ _⟩
    · exact (intakeRecord_frame _ _).intake.trans (writeSlot_intake _ _ _)
    · exact (intakeRecord_frame _ _).sameStream.wroteSlot (writeSlot_wroteSlot _ _ _)
    · exact (intakeRecord_frame _ _).sameStream.now.trans (writeSlot_now _ _ _)
    · exact (intakeRecord_frame _ _).settings.trans (writeSlot_settings _ _ _)
  · have hexpired : expireTimer .gapSlot (s.waited d) = writeSlot .gap last ((s.waited d).setIntake
        { (s.waited d).intake with gapSlotTimer := some (d + s.interval) }) := by
      rw [expireTimer, expireGapSlot, show (s.waited d).intake.link = .lost from hlink]
      exact writeGap_of_lastGood hlast
    exact ⟨_, hrun hk hexpired, rfl, writeSlot_intake _ _ _, writeSlot_wroteSlot _ _ _,
      writeSlot_now _ _ _, writeSlot_settings _ _ _⟩

end Sys2Proof.Machine
end

section
/-! A frame in RUNNING: its gap-fill slots and its own slot as slot writes one after another (R12, R13, R15), and what
the ring keeps of the earlier ones. -/

namespace Sys2Proof.Machine

/-! ### A slot of the ring after further writes (R35, R36) -/

theorem ringPosition_add_ne (i : Index) {k : Nat} (h0 : 0 < k) (hk : k < Config.ringDepth) :
    ringPosition i ≠ ringPosition (i + BitVec.ofNat 32 k) := by
  simp only [ringPosition, Config.ringDepth, BitVec.toNat_add, BitVec.toNat_ofNat] at *
  omega

/-- A slot written `k` slots ago: the ring holds its index, and its cell stands. -/
structure Ring.Aged (g : Ring) (i : Index) (k : Nat) (v : Slot) : Prop where
  newest : g.newest.map Newest.index = some (i + BitVec.ofNat 32 k)
  held : k < g.written
  cell : readCell (ringPosition i) g.cells = some v

theorem Ring.aged_of_write (g : Ring) (i : Index) (accepted : Nat) (v : Slot) :
    (g.write i accepted v).Aged i 0 v where
  newest := by simp [Ring.write]
  held := by simp [Ring.write, Config.ringDepth]
  cell := readCell_writeCell_same _ _ _

theorem Ring.Aged.write {g : Ring} {i : Index} {k : Nat} {v : Slot} (h : g.Aged i k v)
    (hk : k + 1 < Config.ringDepth) (accepted : Nat) (x : Slot) :
    (g.write (i + BitVec.ofNat 32 (k + 1)) accepted x).Aged i (k + 1) v where
  newest := rfl
  held := lt_min (Nat.succ_lt_succ h.held) hk
  cell := (readCell_writeCell_other x g.cells (ringPosition_add_ne i (Nat.succ_pos k) hk)).trans h.cell

theorem Ring.Aged.read {g : Ring} {i : Index} {k : Nat} {v : Slot} (h : g.Aged i k v) :
    (g.read i).slot = some v := by
  obtain ⟨n, hn, hindex⟩ := Option.map_eq_some_iff.1 h.newest
  have hdistance : distance i n.index < g.written := by
    rw [hindex, distance, BitVec.add_comm, BitVec.add_sub_cancel, BitVec.toNat_ofNat]
    exact (Nat.mod_le _ _).trans_lt h.held
  have hholds : g.holds i = true := by
    rw [Ring.holds, hn]
    exact decide_eq_true hdistance
  rw [Ring.read, hholds]
  exact h.cell

/-! ### The slots of a frame, one after another (R13) -/

/-- The states of a frame of g slots as they are written: `w j` once `j` of them are, with the others in hand. -/
structure FrameRun (g : Nat) (last reading : Reading) (inHand : Nat → Option FrameInHand) (w : Nat → State) :
    Prop where
  some_slot : 1 ≤ g
  hand : ∀ j, inHand j = if g ≤ j then none else some { gaps := g - 1 - j, reading := reading }
  start : (w 0).intake.inHand = inHand 0
  lastGood : (w 0).intake.lastGood = some last
  gap : ∀ j, j + 1 < g →
    w (j + 1) = writeSlot .gap last ((w j).setIntake { (w j).intake with inHand := inHand (j + 1) })
  own : w g = writeSlot .good reading
    ((w (g - 1)).setIntake { (w (g - 1)).intake with inHand := none, lastGood := some reading })

section
variable {g : Nat} {last reading : Reading} {inHand : Nat → Option FrameInHand} {w : Nat → State}

/-- The slot after `j` of them, which is the frame's own when it is the last. -/
theorem FrameRun.step (h : FrameRun g last reading inHand w) {j : Nat} (hj : j < g) :
    ∃ f : FrameIntake, f.nextIndex = (w j).intake.nextIndex ∧ f.assembler = (w j).intake.assembler
      ∧ f.inHand = inHand (j + 1)
      ∧ w (j + 1) = writeSlot (if j + 1 < g then .gap else .good) (if j + 1 < g then last else reading)
          ((w j).setIntake f) := by
  by_cases hlt : j + 1 < g
  · rw [if_pos hlt, if_pos hlt]
    exact ⟨{ (w j).intake with inHand := inHand (j + 1) }, rfl, rfl, rfl, h.gap j hlt⟩
  · obtain rfl : g = j + 1 := by omega
    rw [if_neg hlt, if_neg hlt]
    exact ⟨{ (w j).intake with inHand := none, lastGood := some reading }, rfl, rfl,
      by rw [h.hand, if_pos (Nat.le_refl _)], h.own⟩

/-- What stays as it is and what goes on from slot to slot. -/
theorem FrameRun.along (h : FrameRun g last reading inHand w) {j : Nat} (hj : j ≤ g) :
    (w j).intake.nextIndex = (w 0).intake.nextIndex + BitVec.ofNat 32 j
      ∧ (w j).intake.assembler = (w 0).intake.assembler ∧ (w j).intake.inHand = inHand j
      ∧ (w j).settings = (w 0).settings ∧ (w j).clock.now = (w 0).clock.now := by
  induction j with
  | zero => exact ⟨by simp, rfl, h.start, rfl, rfl⟩
  | succ j ih =>
    obtain ⟨hindex, hassembler, -, hsettings, hnow⟩ := ih (Nat.le_of_succ_le hj)
    obtain ⟨f, hfindex, hfassembler, hfin, hw⟩ := h.step hj
    rw [hw]
    refine ⟨?_, ?_, ?_, (writeSlot_settings _ _ _).trans hsettings, (writeSlot_now _ _ _).trans hnow⟩
    · rw [writeSlot_intake, State.setIntake_intake, hfindex, hindex, BitVec.ofNat_add, ← BitVec.add_assoc]
      rfl
    · rw [writeSlot_assembler, State.setIntake_intake, hfassembler, hassembler]
    · rw [writeSlot_inHand, State.setIntake_intake, hfin]

/-- Before the frame's own slot Frame Intake is otherwise as it was, but for the gap-run count. -/
theorem FrameRun.intake (h : FrameRun g last reading inHand w) {j : Nat} (hj : j < g) :
    (w j).intake =
      { (w 0).intake with
        nextIndex := (w j).intake.nextIndex, gapRun := (w j).intake.gapRun, inHand := inHand j } := by
  induction j with
  | zero => rw [← h.start]
  | succ j ih =>
    rw [h.gap j hj, writeSlot_intake, State.setIntake_intake, ih (Nat.lt_of_succ_lt hj)]

theorem FrameRun.final_intake (h : FrameRun g last reading inHand w) :
    (w g).intake =
      { (w 0).intake with
        nextIndex := (w 0).intake.nextIndex + BitVec.ofNat 32 g, lastGood := some reading, gapRun := 0
        inHand := none } := by
  have hindex := (h.along (Nat.le_refl g)).1
  have hlt : g - 1 < g := Nat.sub_lt h.some_slot Nat.one_pos
  rw [← hindex, h.own, writeSlot_intake, State.setIntake_intake, h.intake hlt]
  rfl

/-- The ring takes the slots at ascending indices, all accepted at one instant (R10, R13). -/
theorem FrameRun.ring (h : FrameRun g last reading inHand w) {j : Nat} (hj : j < g) :
    ∃ v : Slot, (v.reading = (if j + 1 < g then last else reading) ∧ v.damaged = false ∧ v.gap = decide (j + 1 < g))
      ∧ (w (j + 1)).ring =
          (w j).ring.write ((w 0).intake.nextIndex + BitVec.ofNat 32 j) (w 0).clock.now v := by
  obtain ⟨hindex, -, -, -, hnow⟩ := h.along (Nat.le_of_lt hj)
  obtain ⟨f, hfindex, -, -, hw⟩ := h.step hj
  obtain ⟨v, ⟨hreading, hdamaged, hgap⟩, hring⟩ := writeSlot_ring (if j + 1 < g then .gap else .good)
    (if j + 1 < g then last else reading) ((w j).setIntake f)
  rw [← hw, State.setIntake_intake, State.setIntake_clock, hfindex, hindex, hnow] at hring
  refine ⟨v, ⟨hreading, hdamaged.trans ?_, hgap.trans ?_⟩, hring⟩
  · split <;> rfl
  · split
    · rename_i hlt
      simp [hlt]
    · rename_i hlt
      simp [hlt]

theorem FrameRun.wroteSlot (h : FrameRun g last reading inHand w) {j : Nat} (hj : j < g) :
    (w (j + 1)).WroteSlot ((w 0).intake.nextIndex + BitVec.ofNat 32 j) (w 0).clock.now
      (if j + 1 < g then last else reading) false (decide (j + 1 < g)) := by
  obtain ⟨v, hv, hring⟩ := h.ring hj
  rw [State.WroteSlot, hring]
  exact ⟨rfl, v, Ring.read_write_same _ _ _ v, hv⟩

/-- A frame's slots are too few to overwrite one another. -/
theorem FrameRun.aged (h : FrameRun g last reading inHand w) (hg : g ≤ Config.ringDepth) {m : Nat} (hm : m + 1 < g) :
    ∃ v : Slot, (v.reading = last ∧ v.gap = true ∧ v.damaged = false) ∧ ∀ k, m + 1 + k ≤ g →
      (w (m + 1 + k)).ring.Aged ((w 0).intake.nextIndex + BitVec.ofNat 32 m) k v := by
  obtain ⟨v, ⟨hreading, hdamaged, hgap⟩, hring⟩ := h.ring (Nat.lt_of_succ_lt hm)
  rw [if_pos hm] at hreading
  refine ⟨v, ⟨hreading, by rw [hgap, decide_eq_true hm], hdamaged⟩, fun k => ?_⟩
  induction k with
  | zero =>
    intro _
    rw [Nat.add_zero, hring]
    exact Ring.aged_of_write _ _ _ v
  | succ k ih =>
    intro hk
    obtain ⟨x, -, hnext⟩ := h.ring (j := m + 1 + k) hk
    have hindex : (w 0).intake.nextIndex + BitVec.ofNat 32 (m + 1 + k) =
        (w 0).intake.nextIndex + BitVec.ofNat 32 m + BitVec.ofNat 32 (k + 1) := by
      rw [BitVec.add_assoc, ← BitVec.ofNat_add, Nat.add_right_comm, Nat.add_assoc m]
    rw [← Nat.add_assoc, hnext, hindex]
    exact (ih (Nat.le_of_succ_le hk)).write (by omega) _ x

/-- Each slot of the frame in hand is the next of its slot writes. -/
theorem FrameRun.writeHeld (h : FrameRun g last reading inHand w) {j : Nat} (hj : j < g) :
    writeHeld (w j) = w (j + 1) := by
  have hin : (w j).intake.inHand = some { gaps := g - 1 - j, reading := reading } := by
    rw [(h.along (Nat.le_of_lt hj)).2.2.1, h.hand, if_neg (Nat.not_le.2 hj)]
  have hlast : (w j).intake.lastGood = some last := by
    rw [h.intake hj]
    exact h.lastGood
  by_cases hlt : j + 1 < g
  · obtain ⟨n, hn⟩ : ∃ n, g - 1 - j = n + 1 := ⟨g - 2 - j, by omega⟩
    rw [Machine.writeHeld, hin, hn, h.gap j hlt, h.hand, if_neg (Nat.not_le.2 hlt), show g - 1 - (j + 1) = n by omega]
    exact writeGap_of_lastGood hlast
  · obtain rfl : g = j + 1 := by omega
    rw [Machine.writeHeld, hin, show j + 1 - 1 - j = 0 by omega, h.own]
    rfl

theorem FrameRun.writeHeldSlots (h : FrameRun g last reading inHand w) {n j : Nat} (hj : j + n ≤ g) :
    writeHeldSlots n (w j) = w (j + n) := by
  induction n generalizing j with
  | zero => rfl
  | succ n ih =>
    have hstep : Machine.writeHeldSlots (n + 1) (w j) = Machine.writeHeldSlots n (Machine.writeHeld (w j)) := rfl
    rw [hstep, h.writeHeld (by omega), ih (by omega)]
    congr 1
    omega

theorem FrameRun.slotsInHand (h : FrameRun g last reading inHand w) {j : Nat} (hj : j ≤ g) :
    (w j).slotsInHand = g - j := by
  rw [State.slotsInHand, (h.along hj).2.2.1, h.hand]
  split
  · rename_i hnone
    split at hnone
    · omega
    · cases hnone
  · rename_i hsome
    split at hsome
    · cases hsome
    · cases hsome
      show g - 1 - j + 1 = g - j
      omega

/-- FRAME writes the slots of its judged frame on until `hold` are left (R13, R24). -/
theorem FrameRun.exec_judged (h : FrameRun g last reading inHand w) {s : State} {j : Nat}
    (hjudge : judgeComplete s = w j) (hj : j ≤ g) (hold : Nat) :
    exec (.frame hold) s = .next (w (max j (g - hold))) := by
  show Host.Outcome.next (Machine.writeHeldSlots ((judgeComplete s).slotsInHand - hold) (judgeComplete s)) = _
  rw [hjudge, h.slotsInHand hj, h.writeHeldSlots (by omega)]
  congr 2
  omega

theorem FrameRun.judgeComplete (h : FrameRun g last reading inHand w)
    (hhunting : (w 0).intake.assembler = .hunting) {j : Nat} (hj : j ≤ g) : judgeComplete (w j) = w j := by
  apply judgeComplete_of_none
  rw [(h.along hj).2.1, hhunting]
  rfl

end

/-! ### The judgement in RUNNING (R15) -/

theorem counterJump (counter expected : Byte) :
    (counter - expected + 1).toNat = (counter.toNat + 256 - expected.toNat + 1) % 256 := by
  have hexpected := expected.isLt
  have hone : (1 : Byte).toNat = 1 := rfl
  rw [BitVec.toNat_add, BitVec.toNat_sub, hone]
  omega

theorem FrameIntake.follow_of_running {f : FrameIntake} (h : f.link = .running) (counter : Byte) (expiry : Nat) :
    f.follow counter expiry =
      { f with expected := some (counter + 1), linkTimer := some expiry, gapSlotTimer := none } := by
  rw [FrameIntake.follow, ← h]

section
variable {s : State} {f : GoodFrame} {expected : Byte}

theorem goodFrame_of_running (hlink : s.intake.link = .running) (hexpected : s.intake.expected = some expected) :
    goodFrame f s =
      if (f.counter - expected + 1).toNat = 0 then s
      else s.setIntake
        { s.intake.follow f.counter (s.clock.now + 4 * s.interval) with
          inHand := some { gaps := (f.counter - expected + 1).toNat - 1, reading := f.reading } } := by
  rw [goodFrame, hlink, hexpected]
  rfl

/-- In RUNNING a good frame with g = 0 is discarded (R15). -/
theorem goodFrame_of_no_jump (hlink : s.intake.link = .running) (hexpected : s.intake.expected = some expected)
    (hjump : (f.counter - expected + 1).toNat = 0) : goodFrame f s = s := by
  rw [goodFrame_of_running hlink hexpected, if_pos hjump]

/-- In RUNNING the g slots of a good frame are in hand after it (R13, R15). -/
theorem goodFrame_of_jump {g : Nat} (hlink : s.intake.link = .running) (hexpected : s.intake.expected = some expected)
    (hjump : (f.counter - expected + 1).toNat = g) (hg : 1 ≤ g) :
    goodFrame f s = s.setIntake
      { s.intake with
        expected := some (f.counter + 1), linkTimer := some (s.clock.now + 4 * s.interval), gapSlotTimer := none
        inHand := some { gaps := g - 1, reading := f.reading } } := by
  subst hjump
  rw [goodFrame_of_running hlink hexpected, if_neg (Nat.ne_of_gt hg), FrameIntake.follow_of_running hlink]

end

/-- Settles O31: the judgement puts the frame's g slots in hand, and each is a slot write of its own. -/
theorem runningFramesFillTheirGaps : Obligations.RunningFramesFillTheirGaps := by
  refine ⟨fun s hold hcomplete hin => ?_, ?_⟩
  · have hjudged := judgeComplete_of_none hcomplete
    rw [exec_frame_of_none (by rw [hjudged]; exact hin), hjudged]
  · intro s bytes e f expected last g ha hb hf hin hlink hexpected hlast hg
    have hjump : (f.counter - expected + 1).toNat = g := (counterJump _ _).trans hg.symm
    have hjudged : judgeComplete s = goodFrame f (s.setIntake { s.intake with assembler := .hunting }) := by
      rw [judgeComplete_of_twelve ha hb hin, judge_good hf]
    refine ⟨fun hzero hold => ?_, fun hone w inHand hhand hstart hgap hown => ?_⟩
    · have hnext := hjudged.trans (goodFrame_of_no_jump hlink hexpected (hjump.trans hzero))
      rw [exec_frame_of_none (by rw [hnext]; exact hin), hnext]
    · have hrun : FrameRun g last f.reading inHand w :=
        ⟨hone, hhand, by rw [hstart]; rfl, by rw [hstart]; exact hlast, hgap, hown⟩
      have hindex : (w 0).intake.nextIndex = s.intake.nextIndex := by rw [hstart]; rfl
      have hnow : (w 0).clock.now = s.clock.now := by rw [hstart]; rfl
      have hhunting : (w 0).intake.assembler = .hunting := by rw [hstart]; rfl
      have hjudge : judgeComplete s = w 0 := by
        rw [hjudged.trans (goodFrame_of_jump hlink hexpected hjump hone), hstart, hhand, if_neg (Nat.not_le.2 hone)]
        rfl
      refine ⟨fun hold => ?_, fun j hold hj => hrun.exec_judged (hrun.judgeComplete hhunting hj) hj hold,
        fun j hpos hj => ?_, ?_, fun i hpos hi => ?_, fun j hj => ?_⟩
      · rw [hrun.exec_judged hjudge (Nat.zero_le g), Nat.zero_max]
      · obtain ⟨i, rfl⟩ : ∃ i, j = i + 1 := ⟨j - 1, by omega⟩
        have hwrote := hrun.wroteSlot hj
        rwa [hindex, hnow] at hwrote
      · have hfinal := hrun.final_intake
        rw [hstart] at hfinal
        rw [hfinal, ← hin]
        rfl
      · obtain ⟨m, rfl⟩ : ∃ m, i = m + 1 := ⟨i - 1, by omega⟩
        have hdepth : g ≤ Config.ringDepth := by
          have h := Nat.mod_lt (f.counter.toNat + 256 - expected.toNat + 1) (y := 256) (by decide)
          rw [← hg] at h
          exact h.le.trans (by decide)
        obtain ⟨v, hv, haged⟩ := hrun.aged hdepth hi
        have hread := (haged (g - (m + 1)) (by omega)).read
        rw [Nat.add_sub_of_le hi.le, hindex] at hread
        exact ⟨v, hread, hv⟩
      · obtain ⟨-, -, -, hsettings, hclock⟩ := hrun.along hj
        exact ⟨hsettings.trans (by rw [hstart]; rfl), hclock.trans hnow⟩

end Sys2Proof.Machine
end

section
/-! The gap-run event at the three bands (R21, R63 to R65, R68, R72, R75, R77): what becomes of each unit, and the CLOSE
records handed over one after another. -/

namespace Sys2Proof.Machine

/-! ### Insertions into a list that is not full (R122, R129) -/

theorem length_placeRecord (new : Record) (rs : List Record) : (placeRecord new rs).length = rs.length + 1 := by
  induction rs with
  | nil => rfl
  | cons r more ih =>
    unfold placeRecord
    split
    · rfl
    · rw [List.length_cons, ih, List.length_cons]

/-- Short of 64 records an insertion places one record among those there. -/
theorem insertRecord_records {s : State} (h : s.list.records.length < Config.listDepth) (key : Index) (d : Detail) :
    ∃ new : Record, new.key = key ∧ new.detail = d
      ∧ (insertRecord key d s).list.records = placeRecord new s.list.records := by
  have hevict : (evictIfFull s).list.records = s.list.records := by
    rw [evictIfFull_records, if_neg (Nat.not_le.2 h)]
  unfold insertRecord
  dsimp only
  rw [if_pos h, nearFullRise_records, hevict]
  exact ⟨_, rfl, rfl, rfl⟩

theorem insertRecord_keeps {s : State} (h : s.list.records.length < Config.listDepth) (key : Index) (d : Detail)
    {k : Index} {x : Detail} (hs : s.HasRecord k x) : (insertRecord key d s).HasRecord k x := by
  obtain ⟨new, -, -, hrecords⟩ := insertRecord_records h key d
  obtain ⟨r, hr, hkey, hdetail⟩ := hs
  rw [State.HasRecord, hrecords]
  exact ⟨r, mem_placeRecord.2 (.inr hr), hkey, hdetail⟩

theorem length_insertRecord {s : State} (h : s.list.records.length < Config.listDepth) (key : Index) (d : Detail) :
    (insertRecord key d s).list.records.length = s.list.records.length + 1 := by
  obtain ⟨new, -, -, hrecords⟩ := insertRecord_records h key d
  rw [hrecords, length_placeRecord]

/-- Records handed over in turn to a list with room for them all stand in it. -/
theorem foldl_insertRecord_hasRecord {α : Type} (key : Index) (d : α → Detail) (xs : List α) {s : State}
    (h : s.list.records.length + xs.length ≤ Config.listDepth) {k : Index} {x : Detail}
    (hx : s.HasRecord k x ∨ k = key ∧ ∃ a ∈ xs, d a = x) :
    (xs.foldl (fun t a => insertRecord key (d a) t) s).HasRecord k x := by
  induction xs generalizing s with
  | nil => exact hx.elim id fun h => by obtain ⟨-, a, ha, -⟩ := h; cases ha
  | cons a xs ih =>
    have hroom : s.list.records.length < Config.listDepth := by
      rw [List.length_cons] at h
      omega
    refine ih ?_ ?_
    · rw [length_insertRecord hroom, Nat.add_right_comm]
      exact h
    · rcases hx with hs | ⟨rfl, b, hb, rfl⟩
      · exact .inl (insertRecord_keeps hroom _ _ hs)
      · rcases List.mem_cons.1 hb with rfl | hb
        · exact .inl (insertRecord_hasRecord _ _ s)
        · exact .inr ⟨rfl, b, hb, rfl⟩

/-! ### Hand-overs beside the units -/

/-- A state with its units and what is owed replaced. -/
def State.withUnits (s : State) (us : Bands TriggerUnit) (o : Owed) : State := { s with units := us, owed := o }

/-- The list reads neither the units nor what is owed. -/
theorem withUnits_alike (us : Bands TriggerUnit) (o : Owed) :
    RecordsAlike True fun s t => t = s.withUnits us o where
  list h := by rw [h]; rfl
  readers h := by rw [h]; rfl
  raise n p _ h := by rw [h]; rfl
  setReader p r h := by rw [h]; rfl
  withList l _ h := by rw [h]; rfl

/-! ### One band -/

/-- What becomes of a unit at the gap-run event (R63, R65, R68, R72, R75). -/
def TriggerUnit.gapRestart (u : TriggerUnit) : TriggerUnit :=
  match u.state with
  | .off => u
  | .pending | .declared => u.unfreeze.enterWarming.applyStaged
  | .warming | .idle | .cooldown => u.enterWarming

theorem gapRestart_of_off {u : TriggerUnit} (h : u.state = .off) : u.gapRestart = u := by
  rw [TriggerUnit.gapRestart, h]

theorem gapRestart_of_running {u : TriggerUnit} (h : u.state = .warming ∨ u.state = .idle ∨ u.state = .cooldown) :
    u.gapRestart = { u with state := .warming, warmCount := 0, rewarm := false } := by
  unfold TriggerUnit.gapRestart
  rcases h with h | h | h
  all_goals rw [h]; rfl

/-- A band that restarts anyway takes its staged profile without restarting again (R83, R84). -/
theorem enterWarming_applyStaged (u : TriggerUnit) :
    u.enterWarming.applyStaged =
      { u.enterWarming with
        profile := (u.staged.map Staged.profile).getD u.profile
        generation := (u.staged.map Staged.generation).getD u.generation
        staged := none } := by
  unfold TriggerUnit.applyStaged
  cases hg : u.staged with
  | none =>
    rw [show u.enterWarming.staged = none from hg]
    cases u
    cases hg
    rfl
  | some g =>
    rw [show u.enterWarming.staged = some g from hg]
    show u.enterWarming.applyProfile g = _
    unfold TriggerUnit.applyProfile
    dsimp only
    split <;> rfl

theorem gapRestart_of_frozen {u : TriggerUnit} (h : u.state = .pending ∨ u.state = .declared) :
    u.gapRestart =
      { u with
        state := .warming
        warmCount := 0
        rewarm := false
        lta := u.frozenLta.getD u.lta
        frozenLta := none
        heldMin := none
        tOn := none
        tOn2 := none
        profile := (u.staged.map Staged.profile).getD u.profile
        generation := (u.staged.map Staged.generation).getD u.generation
        staged := none } := by
  have hrestart : u.gapRestart = u.unfreeze.enterWarming.applyStaged := by
    unfold TriggerUnit.gapRestart
    rcases h with h | h
    all_goals rw [h]
  rw [hrestart, enterWarming_applyStaged]
  rfl

/-- The CLOSE record of a DECLARED band at the gap-run event (R72, R77). -/
def gapClose (u : TriggerUnit) (b : Band) (n : Index) : Detail := .close (u.closePart b n .gap)

theorem unitDue_gapRun_iff {s : State} {b : Band} (h : s.owed.gapRun = true) :
    s.unitDue b = .gapRun ↔ (s.units.get b).state ≠ .off := by
  unfold State.unitDue TriggerUnit.due
  cases hstate : (s.units.get b).state <;> simp [h]

/-- The CLOSE record of a band handed to the list, if the band was DECLARED as the event came. -/
def closeAtGap (us : Bands TriggerUnit) (n : Index) (s : State) (b : Band) : State :=
  if (us.get b).state = .declared then insertRecord n (gapClose (us.get b) b n) s else s

theorem closeAtGap_frame (us : Bands TriggerUnit) (n : Index) (s : State) (b : Band) :
    OnlyRecords s (closeAtGap us n s b) := by
  unfold closeAtGap
  split
  · exact insertRecord_frame _ _ s
  · exact .refl s

theorem closeAtGap_withUnits (us : Bands TriggerUnit) (n : Index) (b : Band) (s : State) (vs : Bands TriggerUnit)
    (o : Owed) : closeAtGap us n (s.withUnits vs o) b = (closeAtGap us n s b).withUnits vs o := by
  unfold closeAtGap
  split
  · exact (withUnits_alike vs o).insertRecord n (fun _ _ => trivial) rfl
  · rfl

theorem foldl_closeAtGap_withUnits (us : Bands TriggerUnit) (n : Index) (bs : List Band) (s : State)
    (vs : Bands TriggerUnit) (o : Owed) :
    bs.foldl (closeAtGap us n) (s.withUnits vs o) = (bs.foldl (closeAtGap us n) s).withUnits vs o := by
  induction bs generalizing s with
  | nil => rfl
  | cons b bs ih => rw [List.foldl_cons, List.foldl_cons, closeAtGap_withUnits, ih]

/-- The event at one band: its CLOSE record when it is DECLARED, its unit restarted, and nothing owed by it unless it is
OFF. -/
theorem unitRow_gapRun {s : State} {b : Band} (hgap : s.owed.gapRun = true) (hb : s.owed.units.get b = true) :
    unitRow .gapRun b s =
      (closeAtGap s.units s.newestOr s b).withUnits (s.units.set b (s.units.get b).gapRestart)
        { s.owed with units := s.owed.units.set b (decide ((s.units.get b).state = .off)) } := by
  by_cases hoff : (s.units.get b).state = .off
  · have hunits : s.owed.units.set b true = s.owed.units := by rw [← hb, Bands.set_get]
    rw [unitRow, if_neg (fun h => (unitDue_gapRun_iff hgap).1 h hoff), gapRestart_of_off hoff, closeAtGap,
      Bands.set_get, hoff, if_neg (by decide), decide_eq_true rfl, hunits]
    rfl
  · have hdue := (unitDue_gapRun_iff hgap).2 hoff
    rw [unitRow, if_pos hdue, unitFinish, if_pos hb, hdue, decide_eq_false hoff]
    show (unitGapRun b s).setOwed ((unitGapRun b s).owed.unitDone b) = _
    rw [(unitGapRun_frame b s).owed, unitGapRun, TriggerUnit.gapRestart]
    cases hstate : (s.units.get b).state with
    | off => exact absurd hstate hoff
    | declared =>
      rw [closeAtGap, if_pos hstate]
      show (insertRecord s.newestOr (gapClose (s.units.get b) b s.newestOr)
        (s.withUnits (s.units.set b (s.units.get b).unfreeze.enterWarming.applyStaged) s.owed)).setOwed _ = _
      rw [(withUnits_alike _ _).insertRecord s.newestOr (fun _ _ => trivial) rfl]
      rfl
    | pending =>
      rw [closeAtGap, hstate]
      rfl
    | warming =>
      rw [closeAtGap, hstate]
      rfl
    | idle =>
      rw [closeAtGap, hstate]
      rfl
    | cooldown =>
      rw [closeAtGap, hstate]
      rfl

/-- The event at several bands, one after another: the CLOSE records of those that are DECLARED in that order, beside
the units restarted and what they owe. `us` holds the units as they are before the event. -/
theorem foldl_unitRow_gapRun {us : Bands TriggerUnit} {n : Index} {bs : List Band} (hbs : bs.Nodup) {s : State}
    (hgap : s.owed.gapRun = true) (hn : s.newestOr = n) (howes : ∀ b ∈ bs, s.owed.units.get b = true)
    (hus : ∀ b ∈ bs, s.units.get b = us.get b) :
    bs.foldl (fun x b => unitRow .gapRun b x) s =
      (bs.foldl (closeAtGap us n) s).withUnits
        (bs.foldl (fun x b => x.set b (us.get b).gapRestart) s.units)
        { s.owed with
          units := bs.foldl (fun x b => x.set b (decide ((us.get b).state = .off))) s.owed.units } := by
  induction bs generalizing s with
  | nil => rfl
  | cons b bs ih =>
    obtain ⟨hnot, hbs⟩ := List.nodup_cons.1 hbs
    have hother : ∀ c ∈ bs, c ≠ b := fun c hc he => hnot (he ▸ hc)
    have hub := hus b (List.mem_cons_self ..)
    have hrow : unitRow .gapRun b s =
        (closeAtGap us n s b).withUnits (s.units.set b (us.get b).gapRestart)
          { s.owed with units := s.owed.units.set b (decide ((us.get b).state = .off)) } := by
      rw [unitRow_gapRun hgap (howes b (List.mem_cons_self ..)), hn, hub, closeAtGap, closeAtGap, hub]
    rw [List.foldl_cons, hrow, ih hbs, foldl_closeAtGap_withUnits]
    · rfl
    · exact hgap
    · show (closeAtGap us n s b).newestOr = n
      rw [State.newestOr, (closeAtGap_frame us n s b).ring]
      exact hn
    · exact fun c hc => (Bands.get_set_other _ _ (hother c hc)).trans (howes c (List.mem_cons_of_mem _ hc))
    · exact fun c hc => (Bands.get_set_other _ _ (hother c hc)).trans (hus c (List.mem_cons_of_mem _ hc))

theorem foldl_set_get {α : Type} (f : Band → α) (x : Bands α) (b : Band) :
    ([Band.b0, .b1, .b2].foldl (fun x b => x.set b (f b)) x).get b = f b := by
  cases b <;> rfl

/-- A CLOSE record of the event stands in the list if the list has room for one of each band. -/
theorem foldl_closeAtGap_hasRecord (us : Bands TriggerUnit) (n : Index) {s : State} {b : Band}
    (hroom : s.list.records.length + 3 ≤ Config.listDepth) (hb : (us.get b).state = .declared) :
    ([Band.b0, .b1, .b2].foldl (closeAtGap us n) s).HasRecord n (gapClose (us.get b) b n) := by
  have hfilter : [Band.b0, .b1, .b2].foldl (closeAtGap us n) s =
      ([Band.b0, .b1, .b2].filter fun b => decide ((us.get b).state = .declared)).foldl
        (fun x b => insertRecord n (gapClose (us.get b) b n) x) s := by
    rw [List.foldl_filter]
    simp only [decide_eq_true_eq]
    rfl
  rw [hfilter]
  refine foldl_insertRecord_hasRecord n _ _ ?_ (.inr ⟨rfl, b, ?_, rfl⟩)
  · exact (Nat.add_le_add_left (List.length_filter_le ..) _).trans hroom
  · rw [List.mem_filter]
    exact ⟨by cases b <;> decide, decide_eq_true hb⟩

/-- Settles O36: the three units one after another, the CLOSE records of those that are DECLARED beside them. -/
theorem gapRunsRestartTheBands : Obligations.GapRunsRestartTheBands := by
  intro s n close hbegun hgap howes hnewest hclose
  have hn : s.newestOr = n.index := by rw [State.newestOr, hnewest]; rfl
  have hclose : close = fun b => gapClose (s.units.get b) b n.index := funext hclose
  have hexec : exec .gapRunEvent s = .next (([Band.b0, .b1, .b2].foldl (closeAtGap s.units n.index) s).withUnits
      ([Band.b0, .b1, .b2].foldl (fun x b => x.set b (s.units.get b).gapRestart) s.units)
      { s.owed with
        units := [Band.b0, .b1, .b2].foldl (fun x b => x.set b (decide ((s.units.get b).state = .off)))
          s.owed.units }) := by
    rw [← foldl_unitRow_gapRun (by decide) hgap hn (fun b _ => howes b) (fun _ _ => rfl)]
    show execGapRunEvent s = _
    rw [execGapRunEvent, finishBegun_of_nothingBegun hbegun]
    rfl
  have hframe : OnlyRecords s ([Band.b0, .b1, .b2].foldl (closeAtGap s.units n.index) s) :=
    OnlyRecords.foldl _ (closeAtGap_frame _ _) _ s
  refine ⟨_, hexec, ⟨hframe.intake, hframe.filters, hframe.ring, hframe.settings, hframe.clock, hframe.resetHeld,
    hframe.pending⟩, hframe.tmu, hframe.refiner, ?_, rfl,
    foldl_set_get (fun b => decide ((s.units.get b).state = .off)) _, ?_⟩
  · rw [hclose, List.foldl_filter]
    simp only [decide_eq_true_eq]
    rfl
  · rintro b u rfl
    have hunit := foldl_set_get (fun b => (s.units.get b).gapRestart) s.units b
    refine ⟨fun h => hunit.trans (gapRestart_of_off h), fun h => hunit.trans (gapRestart_of_running h),
      fun h => hunit.trans (gapRestart_of_frozen h), fun a h ha hroom => ?_⟩
    have hrecord := foldl_closeAtGap_hasRecord s.units n.index (b := b) (Nat.add_le_add_right hroom 3) h
    rw [gapClose, TriggerUnit.closePart, ha] at hrecord
    exact hrecord

end Sys2Proof.Machine
end

section
/-! What is taken within the command that writes a slot (R13, R28, R96, R125): the units' plain cases leave the refiner,
the Time Mark Unit and what the list took up, and the other handlings are taken exactly where nothing is due. -/

namespace Sys2Proof.Machine

/-! ### What the list took up stays through a hand-over -/

theorem evictIfFull_takenUp (s : State) :
    (evictIfFull s).list.holdback = s.list.holdback ∧ (evictIfFull s).list.newestTaken = s.list.newestTaken := by
  unfold evictIfFull
  split
  · split
    · rw [loseRecordBoth_list]
      exact ⟨rfl, rfl⟩
    · exact ⟨rfl, rfl⟩
  · exact ⟨rfl, rfl⟩

theorem nearFullRise_takenUp (s : State) :
    (nearFullRise s).list.holdback = s.list.holdback ∧ (nearFullRise s).list.newestTaken = s.list.newestTaken := by
  unfold nearFullRise
  split
  · exact ⟨rfl, rfl⟩
  · exact ⟨rfl, rfl⟩

theorem insertRecord_takenUp (key : Index) (d : Detail) (s : State) :
    (insertRecord key d s).list.holdback = s.list.holdback
      ∧ (insertRecord key d s).list.newestTaken = s.list.newestTaken := by
  unfold insertRecord
  dsimp only
  split
  · rw [(nearFullRise_takenUp _).1, (nearFullRise_takenUp _).2]
    exact evictIfFull_takenUp s
  · exact evictIfFull_takenUp s

/-! ### The units' plain cases -/

/-- What a unit's plain case keeps: all but the units, the records, the readers, the notices and what the units owe. -/
structure PlainKept (s t : State) : Prop extends OnlySettled s t where
  refiner : t.refiner = s.refiner
  tmu : t.tmu = s.tmu
  holdback : t.list.holdback = s.list.holdback
  newestTaken : t.list.newestTaken = s.list.newestTaken
  owed : t.owed = { s.owed with units := t.owed.units }

theorem PlainKept.refl (s : State) : PlainKept s s := ⟨.refl s, rfl, rfl, rfl, rfl, rfl⟩

theorem PlainKept.trans {s t u : State} (h : PlainKept s t) (g : PlainKept t u) : PlainKept s u :=
  ⟨h.toOnlySettled.trans g.toOnlySettled, g.refiner.trans h.refiner, g.tmu.trans h.tmu,
    g.holdback.trans h.holdback, g.newestTaken.trans h.newestTaken, by rw [g.owed, h.owed]⟩

theorem setUnit_plainKept (b : Band) (u : TriggerUnit) (s : State) : PlainKept s (s.setUnit b u) :=
  ⟨(setUnit_frame b u s).toOnlySettled, rfl, rfl, rfl, rfl, rfl⟩

theorem unitEnd_plainKept (b : Band) (c : CloseCause) (rewarm : Bool) (s : State) :
    PlainKept s (unitEnd b c rewarm s) := by
  have hframe := handClose_frame b (s.units.get b) c (s.setUnit b ((s.units.get b).toCooldown rewarm).applyStaged)
  have htaken := insertRecord_takenUp s.newestOr (.close ((s.units.get b).closePart b s.newestOr c))
    (s.setUnit b ((s.units.get b).toCooldown rewarm).applyStaged)
  exact (setUnit_plainKept b _ s).trans
    ⟨hframe.toOnlySettled, hframe.refiner, hframe.tmu, htaken.1, htaken.2, by rw [unitEnd, hframe.owed]⟩

/-- A case that is no row of the table changes the unit and at most hands over a CLOSE record. -/
theorem unitAct_plainKept {d : UnitDue} (h : d.isRow = false) (b : Band) (s : State) :
    PlainKept s (unitAct d b s) := by
  cases d with
  | nothing => exact .refl s
  | calIdle => exact setUnit_plainKept b _ s
  | rewarm => exact setUnit_plainKept b _ s
  | trigger => exact setUnit_plainKept b _ s
  | calPending => exact setUnit_plainKept b _ s
  | stackBegin => exact setUnit_plainKept b _ s
  | calDeclared => exact unitEnd_plainKept b _ _ s
  | fell => exact unitEnd_plainKept b _ _ s
  | gapRun | warm | primary | maxDur | stacked | dead => cases h

theorem unitPlain_plainKept (b : Band) (s : State) : PlainKept s (unitPlain b s) := by
  unfold unitPlain
  split
  · exact .refl s
  · rename_i hrow
    unfold unitFinish
    split
    · have hact := unitAct_plainKept (Bool.eq_false_iff.2 hrow) b s
      exact hact.trans ⟨setOwed_frame _ _, rfl, rfl, rfl, rfl, rfl⟩
    · exact .refl s

theorem takeUnits_plainKept (s : State) : PlainKept s (takeUnits s) :=
  ((unitPlain_plainKept .b0 s).trans (unitPlain_plainKept .b1 _)).trans (unitPlain_plainKept .b2 _)

/-! ### The refiner where nothing is due (R96) -/

/-- A WAITING lane whose window ends at the index written (R93). -/
def Lane.scanDue (n : Index) : Lane → Bool
  | .waiting r => decide (r.windowEnd = n)
  | .free | .scanning _ _ | .resolving _ _ _ => false

/-- A lane whose request has its deadline at the index written (R96). -/
def Lane.expiryDue (n : Index) (l : Lane) : Bool :=
  match l.request with
  | some r => expiresAt n r
  | none => false

theorem Lane.scanDue_iff {n : Index} {l : Lane} : l.scanDue n = true ↔ ∃ q, l = .waiting q ∧ q.windowEnd = n := by
  cases l <;> simp [Lane.scanDue]

theorem Lane.expiryDue_iff {n : Index} {l : Lane} :
    l.expiryDue n = true ↔ ∃ q, l.request = some q ∧ q.deadline = n := by
  unfold Lane.expiryDue
  cases l.request <;> simp [expiresAt]

theorem Lane.startScan_of_not_due {n : Index} {l : Lane} (h : l.scanDue n = false) : l.startScan n = l := by
  cases l with
  | waiting r => exact if_neg (of_decide_eq_false h)
  | free | scanning | resolving => rfl

theorem LaneId.exists_iff {P : LaneId → Prop} : (∃ l, P l) ↔ P .l0 ∨ P .l1 ∨ P .l2 ∨ P .l3 := by
  constructor
  · rintro ⟨l, hl⟩
    cases l
    · exact .inl hl
    · exact .inr (.inl hl)
    · exact .inr (.inr (.inl hl))
    · exact .inr (.inr (.inr hl))
  · rintro (h | h | h | h)
    all_goals exact ⟨_, h⟩

theorem State.refinerIdle_eq (s : State) :
    s.refinerIdle =
      (!(s.refiner.lanes.l0.scanDue s.newestOr || s.refiner.lanes.l1.scanDue s.newestOr
          || s.refiner.lanes.l2.scanDue s.newestOr || s.refiner.lanes.l3.scanDue s.newestOr)
        && !(s.refiner.lanes.l0.expiryDue s.newestOr || s.refiner.lanes.l1.expiryDue s.newestOr
          || s.refiner.lanes.l2.expiryDue s.newestOr || s.refiner.lanes.l3.expiryDue s.newestOr)
        && !s.refiner.queue.any (expiresAt s.newestOr) && !s.launchReady) := rfl

/-- The refiner has something to do in a lane, in the queue, or at the launch examination (R96). -/
theorem State.refinerIdle_eq_false_iff (s : State) :
    s.refinerIdle = false ↔
      (∃ q, s.InFlight q ∧ q.deadline = s.newestOr)
      ∨ (∃ l q, s.refiner.lanes.get l = .waiting q ∧ q.windowEnd = s.newestOr)
      ∨ s.launchReady = true := by
  have hscan : (∃ l q, s.refiner.lanes.get l = .waiting q ∧ q.windowEnd = s.newestOr) ↔
      ∃ l, (s.refiner.lanes.get l).scanDue s.newestOr = true :=
    exists_congr fun l => Lane.scanDue_iff.symm
  have hexpiry : (∃ q, s.InFlight q ∧ q.deadline = s.newestOr) ↔
      s.refiner.queue.any (expiresAt s.newestOr) = true
        ∨ ∃ l, (s.refiner.lanes.get l).expiryDue s.newestOr = true := by
    simp only [State.InFlight, Lane.expiryDue_iff, List.any_eq_true, expiresAt, decide_eq_true_eq, or_and_right,
      exists_or]
    exact or_congr_right ⟨fun ⟨q, ⟨l, hq⟩, hd⟩ => ⟨l, q, hq, hd⟩, fun ⟨l, q, hq, hd⟩ => ⟨q, ⟨l, hq⟩, hd⟩⟩
  rw [hscan, hexpiry, LaneId.exists_iff, LaneId.exists_iff, State.refinerIdle_eq]
  simp only [Lanes.get, Bool.and_eq_false_iff, Bool.not_eq_false', Bool.or_eq_true, or_assoc]
  tauto

theorem State.launchReady_iff {s : State} {i : Index} (hi : s.newestIndex = some i) :
    s.launchReady = true ↔
      ∃ (head : Request) (more : List Request) (l : LaneId), s.refiner.queue = head :: more
        ∧ s.refiner.lanes.get l = .free ∧ s.settings.core = .running
        ∧ head.deadline ≠ i ∧ earlier head.deadline i = false
        ∧ governorPermits s.settings.station s.refiner.history i = true := by
  have hfree : s.refiner.freeLane.isSome = true ↔ ∃ l, s.refiner.lanes.get l = .free := by
    simp [Refiner.freeLane, LaneId.exists_iff]
  unfold State.launchReady
  rw [hi]
  cases hq : s.refiner.queue with
  | nil => simp
  | cons head more =>
    cases hl : s.refiner.freeLane with
    | none =>
      rw [hl] at hfree
      simp only [List.cons.injEq]
      constructor
      · intro h
        cases h
      · rintro ⟨_, _, l, -, hl, -⟩
        exact absurd (hfree.2 ⟨l, hl⟩) (by decide)
    | some l =>
      obtain ⟨l', hl'⟩ := hfree.1 (by rw [hl]; rfl)
      simp only [Bool.and_eq_true, decide_eq_true_eq, Bool.not_eq_true', deadlineWritten, notLater,
        Bool.or_eq_false_iff, beq_eq_false_iff_ne]
      constructor
      · rintro ⟨⟨hcore, hgov⟩, hne, hearly⟩
        exact ⟨head, more, l', rfl, hl', hcore, hne, hearly, hgov⟩
      · rintro ⟨_, _, _, he, -, hcore, hne, hearly, hgov⟩
        cases he
        exact ⟨⟨hcore, hgov⟩, hne, hearly⟩

theorem launchExamination_of_not_ready {s : State} (h : s.launchReady = false) : launchExamination s = s := by
  unfold launchExamination
  split
  · rename_i hcore
    unfold State.launchReady at h
    cases hq : s.refiner.queue with
    | nil => rfl
    | cons head more =>
      rw [List.length_cons, launchLoop]
      rw [hq] at h ⊢
      cases hl : s.refiner.freeLane with
      | none => rfl
      | some l =>
        cases hi : s.newestIndex with
        | none => rfl
        | some i =>
          rw [hl, hi] at h
          simp only [hcore, decide_true, Bool.true_and] at h
          exact if_neg (Bool.eq_false_iff.1 h)
  · rfl

theorem expireLane_of_not_due {n : Index} {l : LaneId} {s : State}
    (h : (s.refiner.lanes.get l).expiryDue n = false) : expireLane n l s = s := by
  unfold expireLane
  unfold Lane.expiryDue at h
  split
  · rename_i r hr
    rw [hr] at h
    exact if_neg (Bool.eq_false_iff.1 h)
  · rfl

theorem expireQueue_of_not_due {n : Index} {s : State} (h : s.refiner.queue.any (expiresAt n) = false) :
    expireQueue n s = s := by
  have hnone : ∀ r ∈ s.refiner.queue, expiresAt n r = false := by simpa using h
  unfold expireQueue
  rw [List.filter_eq_nil_iff.2 fun r hr => Bool.eq_false_iff.1 (hnone r hr),
    List.filter_eq_self.2 fun r hr => by rw [hnone r hr]; rfl]
  rfl

/-- With nothing due, all three steps change only what is owed. -/
theorem refinerFinish_of_idle {s : State} (howed : s.owed.refiner = .expiry) (h : s.refinerIdle = true) :
    refinerFinish s = s.setOwed { s.owed with refiner := .done } := by
  rw [State.refinerIdle_eq] at h
  simp only [Bool.and_eq_true, Bool.not_eq_true', Bool.or_eq_false_iff] at h
  obtain ⟨⟨⟨⟨⟨⟨w0, w1⟩, w2⟩, w3⟩, ⟨⟨x0, x1⟩, x2⟩, x3⟩, hqueue⟩, hready⟩ := h
  have hexpiry : refinerExpiry s = s.setOwed { s.owed with refiner := .scanStart } := by
    unfold refinerExpiry expiryStep
    rw [howed, expireLane_of_not_due (l := .l0) x0, expireLane_of_not_due (l := .l1) x1,
      expireLane_of_not_due (l := .l2) x2, expireLane_of_not_due (l := .l3) x3, expireQueue_of_not_due hqueue]
  have hscan : scanStartStep s.newestOr (s.setOwed { s.owed with refiner := .scanStart }) =
      s.setOwed { s.owed with refiner := .scanStart } := by
    unfold scanStartStep
    simp only [State.setOwed_refiner]
    rw [Lane.startScan_of_not_due w0, Lane.startScan_of_not_due w1, Lane.startScan_of_not_due w2,
      Lane.startScan_of_not_due w3]
    rfl
  have hstart : refinerScanStart s = s.setOwed { s.owed with refiner := .launch } := by
    unfold refinerScanStart
    rw [hexpiry]
    show (scanStartStep s.newestOr (s.setOwed { s.owed with refiner := .scanStart })).setOwed _ = _
    rw [hscan]
    rfl
  have hlaunch : launchExamination (s.setOwed { s.owed with refiner := .launch }) =
      s.setOwed { s.owed with refiner := .launch } := launchExamination_of_not_ready hready
  unfold refinerFinish
  rw [hstart]
  show (launchExamination (s.setOwed { s.owed with refiner := .launch })).setOwed _ = _
  rw [hlaunch]
  rfl

/-! ### The list where nothing is due (R125) -/

theorem State.listIdle_eq_false_iff (s : State) :
    s.listIdle = false ↔ ∃ x ∈ s.list.records, (s.newestOr - x.key).toNat = 2147483647
      ∨ x.released = false
        ∧ (x.key + BitVec.ofNat 32 s.settings.station.holdback = s.newestOr
          ∨ earlier (x.key + BitVec.ofNat 32 s.settings.station.holdback) s.newestOr = true) := by
  simp only [State.listIdle, Bool.and_eq_false_iff, Bool.not_eq_false', List.any_eq_true, ageLimit, releaseDue,
    distance, addSlots, notLater, beq_iff_eq, Bool.and_eq_true, Bool.not_eq_true', Bool.or_eq_true, ← exists_or,
    ← and_or_left]

theorem retireRecords_of_not_due {n : Index} {s : State} (h : s.list.records.any (ageLimit n) = false) :
    retireRecords n s = s := by
  have hnone : ∀ r ∈ s.list.records, ageLimit n r = false := by simpa using h
  unfold retireRecords
  rw [List.filter_eq_nil_iff.2 fun r hr => Bool.eq_false_iff.1 (hnone r hr)]
  rfl

theorem releaseRecords_of_not_due {n : Index} {s : State}
    (h : s.list.records.any (releaseDue s.list.holdback n) = false) : releaseRecords n s = s := by
  have hnone : ∀ r ∈ s.list.records, releaseDue s.list.holdback n r = false := by simpa using h
  unfold releaseRecords
  rw [List.filter_eq_nil_iff.2 fun r hr => Bool.eq_false_iff.1 (hnone r hr)]
  rfl

/-- With nothing due, the list takes up the holdback and the index and changes otherwise only what is owed. -/
theorem listFinish_of_idle {s : State} (howed : s.owed.list = .retire) (h : s.listIdle = true) :
    listFinish s = (takeUp s.newestOr s).setOwed { s.owed with list := .done } := by
  obtain ⟨hretire, hrelease⟩ : s.list.records.any (ageLimit s.newestOr) = false
      ∧ s.list.records.any (releaseDue s.settings.station.holdback s.newestOr) = false := by
    simpa [State.listIdle] using h
  have hstep : listRetire s = (takeUp s.newestOr s).setOwed { s.owed with list := .release } := by
    unfold listRetire
    rw [howed, retireRecords_of_not_due (s := takeUp s.newestOr s) hretire]
  have hrest : releaseRecords s.newestOr ((takeUp s.newestOr s).setOwed { s.owed with list := .release }) =
      (takeUp s.newestOr s).setOwed { s.owed with list := .release } := releaseRecords_of_not_due hrelease
  unfold listFinish
  rw [hstep]
  show (releaseRecords s.newestOr ((takeUp s.newestOr s).setOwed { s.owed with list := .release })).setOwed _ = _
  rw [hrest]
  rfl

/-! ### The Time Mark Unit where nothing is due (R27, R28) -/

theorem timingFinish_of_not_due {s : State} (howed : s.owed.timing = true) (hwatch : s.watchDue = false)
    (hholdover : s.holdoverDue = false) : timingFinish s = s.setOwed { s.owed with timing := false } := by
  rw [timingFinish, if_pos howed, if_neg (Bool.eq_false_iff.1 hwatch), if_neg (Bool.eq_false_iff.1 hholdover)]

theorem State.watchDue_iff (s : State) :
    s.watchDue = true ↔ s.tmu.timing = .locked
      ∧ ∃ m : Anchor, s.tmu.latest = some m
        ∧ 3 * s.settings.station.fps / 2 ≤ (s.newestOr - m.index).toNat := by
  unfold State.watchDue
  cases s.tmu.timing with
  | locked =>
    cases s.tmu.latest with
    | none => simp
    | some m =>
      rw [decide_eq_true_iff]
      simp [watchLength, distance]
  | none | free | holdover => simp

theorem State.holdoverDue_iff (s : State) :
    s.holdoverDue = true ↔ s.tmu.timing = .holdover
      ∧ s.settings.station.holdoverLimit * s.settings.station.fps + 1 ≤ s.tmu.holdover := by
  simp [State.holdoverDue, holdoverTop]

end Sys2Proof.Machine
end

section
/-! One slot write on a state that owes nothing and has no resolution overdue (R13, R35), and what comes before a slot
write otherwise (R95). -/

namespace Sys2Proof.Machine

/-! ### The handlings taken within the command, together -/

section
variable {s : State}

theorem takeRefiner_eq (howed : s.owed.refiner = .expiry) :
    takeRefiner s = s.setOwed { s.owed with refiner := if s.refinerIdle then .done else .expiry } := by
  unfold takeRefiner
  split
  · rename_i hidle
    exact refinerFinish_of_idle howed hidle
  · rw [← howed]
    rfl

theorem takeList_of_idle (howed : s.owed.list = .retire) (h : s.listIdle = true) :
    takeList s = (takeUp s.newestOr s).setOwed { s.owed with list := .done } := by
  rw [takeList, if_pos h, listFinish_of_idle howed h]

theorem takeList_of_due (h : s.listIdle = false) : takeList s = s := if_neg (Bool.eq_false_iff.1 h)

theorem takeTiming_eq (howed : s.owed.timing = true) :
    takeTiming s = s.setOwed { s.owed with timing := s.watchDue || s.holdoverDue } := by
  unfold takeTiming
  split
  · rename_i hdue
    rw [hdue, ← howed]
    rfl
  · rename_i hdue
    rw [Bool.not_eq_true, Bool.or_eq_false_iff] at hdue
    rw [timingFinish_of_not_due howed hdue.1 hdue.2, hdue.1, hdue.2]
    rfl

end

/-- What the handlings taken within the command leave: the refiner, the Time Mark Unit and the gap-run event as they
are, each later handling owed exactly where something is due, and the holdback and the index taken up by a list with
nothing due. -/
structure PlainTaken (s t : State) : Prop extends OnlySettled s t where
  refiner : t.refiner = s.refiner
  tmu : t.tmu = s.tmu
  gapRun : t.owed.gapRun = s.owed.gapRun
  owedRefiner : t.owed.refiner = if t.refinerIdle then .done else .expiry
  owedList : t.owed.list = if t.listIdle then .done else .retire
  owedTiming : t.owed.timing = (t.watchDue || t.holdoverDue)
  takenUp : t.listIdle = true →
    t.list.holdback = s.settings.station.holdback ∧ t.list.newestTaken = some s.newestOr
  notTakenUp : t.listIdle = false →
    t.list.holdback = s.list.holdback ∧ t.list.newestTaken = s.list.newestTaken

theorem takePlain_taken {s : State} {event : Bool} (howed : s.owed = Owed.all event) :
    PlainTaken s (takePlain s) := by
  have hunits := takeUnits_plainKept s
  have howed' := hunits.owed
  have hframe := (takePlain_frame s)
  rw [takePlain_eq] at hframe ⊢
  generalize takeUnits s = u at hunits howed' hframe ⊢
  rw [howed] at howed'
  have hnewest : u.newestOr = s.newestOr := by rw [State.newestOr, hunits.ring, State.newestOr]
  have hgap : u.owed.gapRun = event := by rw [howed']; rfl
  have hrefiner : u.owed.refiner = .expiry := by rw [howed']; rfl
  have hretire : u.owed.list = .retire := by rw [howed']; rfl
  have htiming : u.owed.timing = true := by rw [howed']; rfl
  cases hlist : u.listIdle with
  | false =>
    have hshape : takeTiming (takeList (takeRefiner u)) =
        u.setOwed { u.owed with
          refiner := if u.refinerIdle then .done else .expiry, timing := u.watchDue || u.holdoverDue } := by
      rw [takeRefiner_eq hrefiner, takeList_of_due, takeTiming_eq]
      · rfl
      · exact htiming
      · exact hlist
    rw [hshape] at hframe ⊢
    exact ⟨hframe, hunits.refiner, hunits.tmu, by rw [howed]; exact hgap, rfl,
      hretire.trans (if_neg (Bool.eq_false_iff.1 hlist)).symm, rfl, fun h => absurd (hlist.symm.trans h) (by decide),
      fun _ => ⟨hunits.holdback, hunits.newestTaken⟩⟩
  | true =>
    have hshape : takeTiming (takeList (takeRefiner u)) =
        (takeUp u.newestOr u).setOwed { u.owed with
          refiner := if u.refinerIdle then .done else .expiry, list := .done
          timing := u.watchDue || u.holdoverDue } := by
      rw [takeRefiner_eq hrefiner, takeList_of_idle, takeTiming_eq]
      · rfl
      · exact htiming
      · exact hretire
      · exact hlist
    rw [hshape] at hframe ⊢
    exact ⟨hframe, hunits.refiner, hunits.tmu, by rw [howed]; exact hgap, rfl, (if_pos hlist).symm, rfl,
      fun _ => ⟨congrArg (·.station.holdback) hunits.settings, congrArg some hnewest⟩,
      fun h => absurd (hlist.symm.trans h) (by decide)⟩

/-! ### Resolutions that four slot writes have followed (R95) -/

theorem completeOverdueLane_of_not_due {l : LaneId} {s : State}
    (h : ∀ q w n, s.refiner.lanes.get l = .resolving q w n → n < 4) : completeOverdueLane l s = s := by
  unfold completeOverdueLane
  split
  · rename_i q w n hlane
    exact if_neg (Nat.not_le.2 (h q w n hlane))
  all_goals rfl

theorem completeOverdueLane_of_due {l : LaneId} {s : State} {q : Request} {w : List WindowSlot} {n : Nat}
    (h : s.refiner.lanes.get l = .resolving q w n) (hn : 4 ≤ n) : completeOverdueLane l s = completeLane l s := by
  unfold completeOverdueLane
  rw [h]
  exact if_pos hn

theorem completeOverdue_eq (s : State) :
    completeOverdue s = [LaneId.l0, .l1, .l2, .l3].foldl (fun t l => completeOverdueLane l t) s := rfl

theorem foldl_completeOverdueLane_of_not_due {ls : List LaneId} {s : State}
    (h : ∀ l ∈ ls, ∀ q w n, s.refiner.lanes.get l = .resolving q w n → n < 4) :
    ls.foldl (fun t l => completeOverdueLane l t) s = s := by
  induction ls with
  | nil => rfl
  | cons l ls ih =>
    obtain ⟨hl, hls⟩ := List.forall_mem_cons.1 h
    rw [List.foldl_cons, completeOverdueLane_of_not_due hl, ih hls]

/-- Every lane that resolves in the one state resolves so in the other. -/
def NoNewResolving (s t : State) : Prop :=
  ∀ l q w n, t.refiner.lanes.get l = .resolving q w n → s.refiner.lanes.get l = .resolving q w n

/-- A launch leaves a lane WAITING or SCANNING (R92). -/
theorem launchLoop_noNewResolving (fuel : Nat) (s : State) : NoNewResolving s (launchLoop fuel s) := by
  induction fuel generalizing s with
  | zero => exact fun _ _ _ _ h => h
  | succ fuel ih =>
    unfold launchLoop
    split
    · rename_i head more l i hq hl hi
      split
      · intro j q w n hj
        have hset := ih _ j q w n hj
        dsimp only at hset
        rw [Lanes.get_set] at hset
        split at hset
        · unfold launchedLane at hset
          split at hset <;> cases hset
        · exact hset
      · exact fun _ _ _ _ h => h
    · exact fun _ _ _ _ h => h

theorem launchExamination_noNewResolving (s : State) : NoNewResolving s (launchExamination s) := by
  unfold launchExamination
  split
  · exact launchLoop_noNewResolving _ s
  · exact fun _ _ _ _ h => h

/-- A lane that resolves after a completion elsewhere resolved before it. -/
theorem completeLane_resolving {l j : LaneId} {s : State} {q : Request} {w : List WindowSlot} {n : Nat}
    {q' : Request} {w' : List WindowSlot} {m : Nat} (hl : s.refiner.lanes.get l = .resolving q' w' m)
    (h : (completeLane l s).refiner.lanes.get j = .resolving q w n) :
    j ≠ l ∧ s.refiner.lanes.get j = .resolving q w n := by
  unfold completeLane at h
  rw [hl] at h
  have hj := launchExamination_noNewResolving _ j q w n h
  rw [(insertRecord_frame _ _ _).refiner, State.setLane_refiner, Lanes.get_set] at hj
  split at hj
  · cases hj
  · rename_i hne
    exact ⟨hne, hj⟩

/-- The lanes before one, in lane order. -/
theorem lanes_split (l : LaneId) :
    ∃ before after, [LaneId.l0, .l1, .l2, .l3] = before ++ l :: after
      ∧ ∀ j ∈ before, [LaneId.l0, .l1, .l2, .l3].idxOf j < [LaneId.l0, .l1, .l2, .l3].idxOf l := by
  cases l
  · exact ⟨[], _, rfl, by decide⟩
  · exact ⟨[.l0], _, rfl, by decide⟩
  · exact ⟨[.l0, .l1], _, rfl, by decide⟩
  · exact ⟨[.l0, .l1, .l2], _, rfl, by decide⟩

/-- The first overdue resolution completes before the others. -/
theorem completeOverdue_completeLane {l : LaneId} {s : State} {q : Request} {w : List WindowSlot} {n : Nat}
    (hl : s.refiner.lanes.get l = .resolving q w n) (hn : 4 ≤ n)
    (hbefore : ∀ j, [LaneId.l0, .l1, .l2, .l3].idxOf j < [LaneId.l0, .l1, .l2, .l3].idxOf l →
      ∀ q' w' m, s.refiner.lanes.get j = .resolving q' w' m → m < 4) :
    completeOverdue s = completeOverdue (completeLane l s) := by
  obtain ⟨before, after, hlanes, hearlier⟩ := lanes_split l
  have hfirst : ∀ j ∈ before, ∀ q' w' m, s.refiner.lanes.get j = .resolving q' w' m → m < 4 :=
    fun j hj => hbefore j (hearlier j hj)
  have hthen : ∀ j ∈ before, ∀ q' w' m, (completeLane l s).refiner.lanes.get j = .resolving q' w' m → m < 4 :=
    fun j hj q' w' m h => hfirst j hj q' w' m (completeLane_resolving hl h).2
  rw [completeOverdue_eq, completeOverdue_eq, hlanes, List.foldl_append, List.foldl_append, List.foldl_cons,
    List.foldl_cons, foldl_completeOverdueLane_of_not_due hfirst, foldl_completeOverdueLane_of_not_due hthen,
    completeOverdueLane_of_due hl hn,
    completeOverdueLane_of_not_due fun q' w' m h => absurd rfl (completeLane_resolving hl h).1]

/-! ### The write itself -/

theorem writeSlot_of_nothing {k : SlotKind} {r : Reading} {s : State} (howed : s.owed = Owed.nothing)
    (hlanes : ∀ l q w n, s.refiner.lanes.get l = .resolving q w n → n < 4) :
    writeSlot k r s = takePlain (writeCore k r s) := by
  rw [writeSlot, settleOwed_of_nothing howed, completeOverdue_eq,
    foldl_completeOverdueLane_of_not_due fun l _ => hlanes l]

theorem gapRunEvent_iff (k : SlotKind) (count limit : Nat) :
    gapRunEvent k count limit = true ↔ k = .gap ∧ min (count + 1) 65535 = limit + 1 := by
  rw [gapRunEvent, Bool.and_eq_true, decide_eq_true_iff, decide_eq_true_iff]
  refine and_congr_right fun h => ?_
  subst h
  rfl

theorem filterStep_get (profile : Band → Profile) (r : Reading) (f : FilterBank) (b : Band) :
    (filterStep .running profile r f).get b = filterBand (profile b) r (f.get b) := by
  cases b <;> rfl

theorem completeSlot_running (f : FilterBank) (r : Reading) (damaged gap : Bool) (b : Band) :
    (completeSlot .running f r damaged gap).energy.get b = bandEnergy (f.get b)
      ∧ (completeSlot .running f r damaged gap).vertical.get b = bandVertical (f.get b) := by
  cases b <;> exact ⟨rfl, rfl⟩

theorem completeSlot_esat (f : FilterBank) (r : Reading) (damaged gap : Bool) :
    (completeSlot .running f r damaged gap).esat = true ↔ ∃ b, bandSaturates (f.get b) = true := by
  show (bandSaturates f.b0 || bandSaturates f.b1 || bandSaturates f.b2) = true ↔ _
  rw [Bool.or_eq_true, Bool.or_eq_true]
  constructor
  · rintro ((h | h) | h)
    · exact ⟨.b0, h⟩
    · exact ⟨.b1, h⟩
    · exact ⟨.b2, h⟩
  · rintro ⟨b, h⟩
    cases b
    · exact .inl (.inl h)
    · exact .inl (.inr h)
    · exact .inr h

/-- A slot write leaves every other slot that the ring still holds as it read before (R35, R36). -/
theorem State.RingKept.read_other {s : State} (h : s.RingKept) {accepted : Nat} {v : Slot} {j : Index}
    (hj : j ≠ s.intake.nextIndex) (hholds : (s.ring.write s.intake.nextIndex accepted v).holds j = true) :
    (s.ring.write s.intake.nextIndex accepted v).read j = s.ring.read j := by
  obtain ⟨-, -, -, hnewest, -⟩ := h
  have hdistance : distance j s.intake.nextIndex < min (s.ring.written + 1) 8192 := of_decide_eq_true hholds
  have hfar : 0 < distance j s.intake.nextIndex := by
    rw [distance]
    bv_omega
  have hposition : ringPosition j ≠ ringPosition s.intake.nextIndex := by
    have hnext : j + BitVec.ofNat 32 (distance j s.intake.nextIndex) = s.intake.nextIndex := by
      rw [distance, BitVec.ofNat_toNat, BitVec.setWidth_eq, BitVec.add_comm, BitVec.sub_add_cancel]
    rw [← hnext]
    exact ringPosition_add_ne j hfar (hdistance.trans_le (min_le_right _ _))
  have hwritten : s.ring.written ≠ 0 := by omega
  rw [if_neg hwritten] at hnewest
  obtain ⟨n, hn, hindex⟩ := Option.map_eq_some_iff.1 hnewest
  have hold : s.ring.holds j = true := by
    rw [Ring.holds, hn]
    refine decide_eq_true ?_
    rw [distance] at hfar hdistance
    rw [hindex, distance]
    bv_omega
  rw [Ring.read, Ring.read, hholds, hold]
  exact congrArg (ReadResult.mk j) (readCell_writeCell_other v s.ring.cells hposition)

theorem countWrite_get (s : State) (k : SlotKind) (r : Reading) (l : LaneId) :
    (writeCore k r s).refiner.lanes.get l =
      match s.refiner.lanes.get l with
      | .resolving q w n => .resolving q w (n + 1)
      | lane => lane := by
  have hcount : ∀ x : Lane, x.countWrite = match x with
      | .resolving q w n => .resolving q w (n + 1)
      | lane => lane := fun x => by cases x <;> rfl
  cases l <;> exact hcount _

/-! ### What the write leaves owed -/

section
variable {s t : State} {i : Index}

theorem newestOr_of_newestIndex (h : t.newestIndex = some i) : t.newestOr = i := by
  rw [State.newestOr]
  exact congrArg (Option.getD · 0) h

theorem governorPermits_iff (x : Station) (history : List Index) (n : Index) :
    governorPermits x history n = true ↔
      ((history.drop (history.length - x.launches)).filter fun m => decide ((n - m).toNat < x.span)).length
        < x.launches := decide_eq_true_iff

/-- The refiner's handling is owed exactly where something is due in a lane, in the queue or at the launch examination
(R91, R92, R96). -/
theorem PlainTaken.refiner_owed (h : PlainTaken s t) (hi : t.newestIndex = some i) :
    (t.owed.refiner = .expiry ∨ t.owed.refiner = .done)
    ∧ (t.owed.refiner = .expiry ↔
        (∃ q, t.InFlight q ∧ q.deadline = i)
        ∨ (∃ l q, t.refiner.lanes.get l = .waiting q ∧ q.windowEnd = i)
        ∨ ∃ (head : Request) (more : List Request) (l : LaneId), t.refiner.queue = head :: more
          ∧ t.refiner.lanes.get l = .free ∧ t.settings.core = .running
          ∧ head.deadline ≠ i ∧ earlier head.deadline i = false
          ∧ governorPermits t.settings.station t.refiner.history i = true) := by
  have hidle := State.refinerIdle_eq_false_iff t
  rw [newestOr_of_newestIndex hi, State.launchReady_iff hi] at hidle
  rw [h.owedRefiner, ← hidle]
  cases t.refinerIdle with
  | true => exact ⟨.inr rfl, by decide⟩
  | false => exact ⟨.inl rfl, by decide⟩

/-- The list's handling is owed exactly where a record is at the age limit or its holdback has passed; otherwise the
list has taken up the holdback and the index (R124, R125, R132). -/
theorem PlainTaken.list_owed (h : PlainTaken s t) (hi : t.newestIndex = some i) :
    (t.owed.list = .retire ∨ t.owed.list = .done)
    ∧ (t.owed.list = .retire ↔ ∃ x ∈ t.list.records, (i - x.key).toNat = 2147483647
        ∨ x.released = false
          ∧ (x.key + BitVec.ofNat 32 t.settings.station.holdback = i
            ∨ earlier (x.key + BitVec.ofNat 32 t.settings.station.holdback) i = true))
    ∧ (t.owed.list = .retire → t.list.holdback = s.list.holdback ∧ t.list.newestTaken = s.list.newestTaken)
    ∧ (t.owed.list = .done →
        t.list.holdback = s.settings.station.holdback ∧ t.list.newestTaken = some s.newestOr) := by
  have hidle := State.listIdle_eq_false_iff t
  rw [newestOr_of_newestIndex hi] at hidle
  rw [h.owedList, ← hidle]
  cases hl : t.listIdle with
  | true => exact ⟨.inr rfl, by decide, fun he => (nomatch he), fun _ => h.takenUp hl⟩
  | false => exact ⟨.inl rfl, by decide, fun _ => h.notTakenUp hl, fun he => (nomatch he)⟩

/-- The Time Mark Unit's handling is owed exactly where the watch length or the holdover limit is reached (R27 to
R29). -/
theorem PlainTaken.timing_owed (h : PlainTaken s t) (hi : t.newestIndex = some i) :
    t.owed.timing = true ↔
      (t.tmu.timing = .locked ∧ ∃ m : Anchor, t.tmu.latest = some m
        ∧ 3 * t.settings.station.fps / 2 ≤ (i - m.index).toNat)
      ∨ (t.tmu.timing = .holdover
        ∧ t.settings.station.holdoverLimit * t.settings.station.fps + 1 ≤ t.tmu.holdover) := by
  rw [h.owedTiming, Bool.or_eq_true, State.watchDue_iff, State.holdoverDue_iff, newestOr_of_newestIndex hi]

end

/-- A resolution that four writes have followed completes before the slot is written, as by its own command (R95). -/
theorem writeSlot_of_overdue {k : SlotKind} {r : Reading} {s u : State} {l : LaneId} {q : Request}
    {w : List WindowSlot} {n : Nat} (howed : s.owed = Owed.nothing)
    (hl : s.refiner.lanes.get l = .resolving q w n) (hn : 4 ≤ n)
    (hbefore : ∀ j, [LaneId.l0, .l1, .l2, .l3].idxOf j < [LaneId.l0, .l1, .l2, .l3].idxOf l →
      ∀ q' w' m, s.refiner.lanes.get j = .resolving q' w' m → m < 4)
    (hu : exec (.resolutionCompletion l) s = .next u) : writeSlot k r s = writeSlot k r u := by
  have hexec : exec (.resolutionCompletion l) s = .next (completeLane l (settleOwed s)) := rfl
  rw [hexec, settleOwed_of_nothing howed] at hu
  obtain rfl : completeLane l s = u := Host.Outcome.next.inj hu
  have howed' : (completeLane l s).owed = Owed.nothing := by rw [(completeLane_frame l s).owed, howed]
  rw [writeSlot, writeSlot, settleOwed_of_nothing howed, settleOwed_of_nothing howed',
    completeOverdue_completeLane hl hn hbefore]

/-- Settles O25: the slot write's own part and what the handlings taken within the command leave; what is owed and
what is overdue come before it. -/
theorem slotWritesStoreAndCount : Obligations.SlotWritesStoreAndCount := by
  refine ⟨?_, ?_, ?_⟩
  · rintro k r s t i v howed hlanes ht rfl hv
    rw [writeSlot_of_nothing howed hlanes] at ht
    have htaken : PlainTaken (writeCore k r s) t := ht ▸ takePlain_taken rfl
    have hring := htaken.ring
    have hslot : completeSlot s.settings.core
        (filterStep s.settings.core (fun b => (s.units.get b).profile) r s.filters) r (decide (k = .damaged))
        (decide (k = .gap)) = v := by
      rw [hring] at hv
      exact Option.some.inj ((Ring.read_write_same ..).symm.trans hv)
    have hindex : t.newestIndex = some s.intake.nextIndex := by rw [State.newestIndex, hring]; rfl
    have hrefiner := htaken.refiner_owed hindex
    have hlist := htaken.list_owed hindex
    have htiming := htaken.timing_owed hindex
    have hsettings : t.settings = s.settings := htaken.settings
    have htmu : t.tmu = { s.tmu with
        holdover := if s.tmu.timing = .holdover then s.tmu.holdover + 1 else s.tmu.holdover } := htaken.tmu
    refine ⟨htaken.intake.trans (by cases k <;> rfl), ?_, ?_, ?_, ?_, ?_, ?_⟩
    · rw [htaken.gapRun]
      exact gapRunEvent_iff ..
    · intro hcore
      rw [htaken.filters, writeCore, hcore]
      rfl
    · rintro hcore b c c' p rfl hc' rfl
      have hfilters : t.filters.get b = filterBand (s.units.get b).profile r (s.filters.get b) := by
        rw [htaken.filters, writeCore, hcore]
        exact filterStep_get _ r _ b
      rw [← hslot, hc', hfilters, hcore, (completeSlot_running _ r _ _ b).1, (completeSlot_running _ r _ _ b).2,
        filterStep_get]
      exact ⟨rfl, rfl, rfl⟩
    · intro hcore
      rw [← hslot, htaken.filters, writeCore, hcore]
      exact completeSlot_esat ..
    · intro hcore
      rw [← hslot, hcore]
      exact ⟨rfl, fun b => by cases b <;> exact ⟨rfl, rfl⟩⟩
    rw [hsettings] at hrefiner hlist htiming
    refine ⟨?_, ?_, ?_, ?_, ?_, ?_, ?_, htmu, htaken.clock, hsettings, htaken.pending, htaken.resetHeld,
      hrefiner.1, ?_, hlist.1, hlist.2.1, hlist.2.2.1, hlist.2.2.2, ?_⟩
    · rw [← hslot, completeSlot_reading]
    · rw [← hslot, completeSlot_damaged]
    · rw [← hslot, completeSlot_gap]
    · rw [hring]
      rfl
    · intro hkept j hj hholds
      rw [hring] at hholds ⊢
      exact hkept.read_other hj hholds
    · rw [htaken.refiner]
      rfl
    · intro l
      rw [htaken.refiner]
      exact countWrite_get s k r l
    · simpa only [governorPermits_iff] using hrefiner.2
    · rw [htiming, htmu]
      refine or_congr_right (and_congr_right fun h => ?_)
      rw [if_pos h]
  · intro k r s
    rw [writeSlot, writeSlot, settleOwed_settleOwed]
  · exact fun k r s u l q w n howed hl hn hbefore hu => writeSlot_of_overdue howed hl hn hbefore hu

end Sys2Proof.Machine
end

section
/-! The line as time passes (R5, R7, R8): stretches that complete no byte, the byte that a stretch completes, and the
byte as the assembler meets it. -/

namespace Sys2Proof.Machine

/-! ### Samples that complete no byte -/

/-- The first samples of a run that completes no byte complete none. -/
theorem rxRun_byte_of_add (level : Bool) (m n : Nat) {rx : Receiver} (h : (rxRun level (m + n) rx).byte = none) :
    (rxRun level m rx).byte = none := by
  induction m generalizing rx with
  | zero => rfl
  | succ m ih =>
    rw [Nat.succ_add] at h
    cases hquiet : rxQuiet level rx with
    | true => rw [rxRun, if_pos hquiet]
    | false =>
      rcases hsample : rxSample level rx with ⟨rx', byte⟩
      cases byte with
      | none =>
        rw [rxRun_succ_of_sample _ hquiet hsample] at h ⊢
        exact ih h
      | some v =>
        rw [rxRun_succ_of_byte _ hquiet hsample] at h
        cases h

/-- The bytes of a line follow those that came before it. -/
theorem rxLine_out (line : Line) (rx : Receiver) (out : List LinkByte) :
    rxLine line rx out = ((rxLine line rx []).1, out ++ (rxLine line rx []).2) := by
  induction line generalizing rx out with
  | nil => rw [rxLine, rxLine, List.append_nil]
  | cons x more ih =>
    obtain ⟨level, n⟩ := x
    rw [rxLine, rxLine, ih, ih _ ([] ++ _), List.nil_append, List.append_assoc]

/-- A line that completes no byte completes none in its first stretch and none in the others. -/
theorem rxLine_cons_none {level : Bool} {n : Nat} {more : Line} {rx rx' : Receiver}
    (h : rxLine ((level, n) :: more) rx [] = (rx', [])) :
    (rxRun level n rx).byte = none ∧ rxLine more (rxRun level n rx).receiver [] = (rx', []) := by
  rw [rxLine, rxLine_out, Prod.mk.injEq] at h
  obtain ⟨hrx, hout⟩ := h
  rw [List.nil_append, List.append_eq_nil_iff] at hout
  refine ⟨?_, Prod.ext hrx hout.2⟩
  cases hbyte : (rxRun level n rx).byte with
  | none => rfl
  | some v =>
    rw [hbyte] at hout
    cases hout.1

/-! ### The state after samples of the line -/

section
variable {s : State}

/-- The state at the last of m + 1 samples of the line, with the line at a level and the receiver as given. -/
def State.onLine (s : State) (level : Bool) (m : Nat) (rx : Receiver) : State :=
  (s.setNow (s.intake.nextSample + m * s.samplePeriod)).setIntake
    { s.intake with
      line := level, receiver := rx, nextSample := s.intake.nextSample + (m + 1) * s.samplePeriod }

theorem State.onLine_timer (level : Bool) (m : Nat) (rx : Receiver) (k : Timer) :
    (s.onLine level m rx).timer k = s.timer k := by
  cases k <;> rfl

theorem State.onLine_onLine (level level' : Bool) (m m' : Nat) (rx rx' : Receiver) :
    (s.onLine level m rx).onLine level' m' rx' = s.onLine level' (m + 1 + m') rx' := by
  have hperiod : (s.onLine level m rx).samplePeriod = s.samplePeriod := rfl
  have hnow : s.intake.nextSample + (m + 1) * s.samplePeriod + m' * s.samplePeriod =
      s.intake.nextSample + (m + 1 + m') * s.samplePeriod := by ring
  have hnext : s.intake.nextSample + (m + 1) * s.samplePeriod + (m' + 1) * s.samplePeriod =
      s.intake.nextSample + (m + 1 + m' + 1) * s.samplePeriod := by ring
  unfold State.onLine at hperiod ⊢
  rw [hperiod]
  simp only [State.setNow, State.setIntake, hnow, hnext]

/-- Exactly m samples fall before the m-th one after the next. -/
theorem State.samplesBefore_periods (m : Nat) :
    s.samplesBefore (s.intake.nextSample + m * s.samplePeriod) = m := by
  rw [State.samplesBefore, Nat.add_sub_cancel_left, State.samplePeriod,
    Nat.add_comm, Nat.add_mul_div_right _ _ (Nat.succ_pos _), Nat.div_eq_of_lt (Nat.lt_succ_self _), Nat.zero_add]

/-- The state as the sample after m others is due, with the line at a level and the receiver as given. -/
def State.beforeSample (s : State) (level : Bool) (m : Nat) (rx : Receiver) : State :=
  (s.setNow (s.intake.nextSample + m * s.samplePeriod)).setIntake
    { s.intake with line := level, receiver := rx, nextSample := s.intake.nextSample + m * s.samplePeriod }

theorem State.beforeSample_sampled (level : Bool) (m : Nat) (rx rx' : Receiver) :
    ((s.beforeSample level m rx).setNow
        (max (s.beforeSample level m rx).clock.now (s.beforeSample level m rx).intake.nextSample)).setIntake
      ((s.beforeSample level m rx).afterSamples 1 rx') = s.onLine level m rx' := by
  have hnext : s.intake.nextSample + m * s.samplePeriod + 1 * s.samplePeriod =
      s.intake.nextSample + (m + 1) * s.samplePeriod := by rw [Nat.add_assoc, ← Nat.add_mul]
  have hinstant : max (s.intake.nextSample + m * s.samplePeriod) (s.intake.nextSample + m * s.samplePeriod) =
      s.intake.nextSample + m * s.samplePeriod := Nat.max_self _
  rw [State.onLine, ← hnext]
  exact congrArg (fun n => (s.setNow n).setIntake _) hinstant

/-- Once the first samples of a stretch have passed time quietly its last sample is due. -/
theorem advanceTo_line (hs : s.Settled) (hreset : s.resetHeld = false) (hnow : s.clock.now ≤ s.intake.nextSample)
    {level : Bool} {m : Nat} (ht : ∀ k d, s.timer k = some d → s.intake.nextSample + m * s.samplePeriod ≤ d)
    (hbyte : (rxRun level m s.intake.receiver).byte = none) :
    advanceTo (s.intake.nextSample + m * s.samplePeriod) (s.setIntake { s.intake with line := level }) =
      s.beforeSample level m (rxRun level m s.intake.receiver).receiver := by
  have hlevel : (s.setIntake { s.intake with line := level }).level = level := by
    rw [State.level, State.setIntake_resetHeld, hreset]
    rfl
  have hsamples : (s.setIntake { s.intake with line := level }).samplesBefore
      (s.intake.nextSample + m * s.samplePeriod) = m := State.samplesBefore_periods m
  have hquiet : (s.setIntake { s.intake with line := level }).QuietUntil
      (s.intake.nextSample + m * s.samplePeriod) := by
    refine ⟨fun k d hk => ht k d (by cases k <;> exact hk), ?_⟩
    rw [hlevel, hsamples]
    exact hbyte
  rw [State.waited_of_quiet (s := s.setIntake { s.intake with line := level }) hs
    (hnow.trans (Nat.le_add_right _ _)) hnow hquiet, State.waited, hlevel, hsamples]
  rfl

/-- All samples of a stretch but the last pass time quietly; what the last one makes of the receiver stands at its
instant, and the byte it completes is delivered there. -/
theorem takeRun_succ (hs : s.Settled) (hreset : s.resetHeld = false) (hnow : s.clock.now ≤ s.intake.nextSample)
    {level : Bool} {m : Nat} (ht : ∀ k d, s.timer k = some d → s.intake.nextSample + m * s.samplePeriod ≤ d)
    (hbyte : (rxRun level m s.intake.receiver).byte = none) :
    takeRun level (m + 1) s =
      match (rxRun level 1 (rxRun level m s.intake.receiver).receiver).byte with
      | some v => deliverByte v
          (s.onLine level m (rxRun level 1 (rxRun level m s.intake.receiver).receiver).receiver)
      | none => s.onLine level m (rxRun level 1 (rxRun level m s.intake.receiver).receiver).receiver := by
  have hlevel : ∀ rx, (s.beforeSample level m rx).level = level := by
    intro rx
    show (s.resetHeld || level) = level
    rw [hreset]
    rfl
  show takeSample (advanceTo (s.intake.nextSample + m * s.samplePeriod)
    (s.setIntake { s.intake with line := level })) = _
  rw [advanceTo_line hs hreset hnow ht hbyte, takeSample, hlevel]
  show (match (rxRun level 1 (rxRun level m s.intake.receiver).receiver).byte with
    | some v => sampleByte 1 (rxRun level 1 (rxRun level m s.intake.receiver).receiver).receiver v _
    | none => _) = _
  cases (rxRun level 1 (rxRun level m s.intake.receiver).receiver).byte with
  | none => exact State.beforeSample_sampled level m _ _
  | some v =>
    dsimp only
    rw [sampleByte, Nat.sub_self, Nat.zero_mul, Nat.add_zero, State.beforeSample_sampled]

/-- A stretch that completes no byte. -/
theorem takeRun_of_none (hs : s.Settled) (hreset : s.resetHeld = false) (hnow : s.clock.now ≤ s.intake.nextSample)
    {level : Bool} {m : Nat} (ht : ∀ k d, s.timer k = some d → s.intake.nextSample + m * s.samplePeriod ≤ d)
    (hbyte : (rxRun level (m + 1) s.intake.receiver).byte = none) :
    takeRun level (m + 1) s = s.onLine level m (rxRun level (m + 1) s.intake.receiver).receiver := by
  have hfirst := rxRun_byte_of_add level m 1 hbyte
  rw [takeRun_succ hs hreset hnow ht hfirst]
  rw [rxRun_add level m 1 hfirst] at hbyte ⊢
  rw [hbyte]

end

/-- How many samples a line lasts. -/
def lineSamples (line : Line) : Nat := (line.map Prod.snd).sum

/-- The level a line ends at, from the level before it. -/
def lineEnd (line : Line) (level : Bool) : Bool := line.foldl (fun _ x => x.1) level

/-- A line that completes no byte leaves the receiver as it samples it (R5). -/
theorem foldl_takeRun_of_none {line : Line} {s : State} (hs : s.Settled) (hreset : s.resetHeld = false)
    (hnow : s.clock.now ≤ s.intake.nextSample) (hlong : ∀ x ∈ line, 0 < x.2) {rx : Receiver} {m : Nat}
    (hm : m + 1 = lineSamples line)
    (ht : ∀ k d, s.timer k = some d → s.intake.nextSample + m * s.samplePeriod ≤ d)
    (hline : rxLine line s.intake.receiver [] = (rx, [])) :
    line.foldl (fun t x => takeRun x.1 x.2 t) s = s.onLine (lineEnd line s.intake.line) m rx := by
  induction line generalizing s m with
  | nil => cases hm
  | cons x more ih =>
    obtain ⟨level, n⟩ := x
    obtain ⟨hn, hmore⟩ := List.forall_mem_cons.1 hlong
    obtain ⟨n, rfl⟩ : ∃ j, n = j + 1 := ⟨n - 1, by omega⟩
    obtain ⟨hbyte, hrest⟩ := rxLine_cons_none hline
    have hsum : m + 1 = n + 1 + lineSamples more := hm
    have htimer : ∀ k d, s.timer k = some d → s.intake.nextSample + n * s.samplePeriod ≤ d := fun k d hk =>
      (Nat.add_le_add_left (Nat.mul_le_mul_right _ (by omega)) _).trans (ht k d hk)
    rw [List.foldl_cons, takeRun_of_none hs hreset hnow htimer hbyte]
    cases more with
    | nil =>
      obtain rfl : m = n := Nat.succ.inj hsum
      rw [← (Prod.mk.inj hrest).1]
      rfl
    | cons y more =>
      have hlast : 0 < y.2 := hmore y (List.mem_cons_self ..)
      obtain ⟨k, hk⟩ : ∃ k, k + 1 = lineSamples (y :: more) := by
        refine ⟨lineSamples (y :: more) - 1, Nat.sub_add_cancel ?_⟩
        exact Nat.le_add_right_of_le hlast
      obtain rfl : m = n + 1 + k := by omega
      rw [ih (s := s.onLine level n _) hs hreset (Nat.add_le_add_left (Nat.mul_le_mul_right _ (Nat.le_succ n)) _)
        hmore hk (fun i d hi => ?_) hrest, State.onLine_onLine]
      · rfl
      · rw [State.onLine_timer] at hi
        refine le_trans (le_of_eq ?_) (ht i d hi)
        show s.intake.nextSample + (n + 1) * s.samplePeriod + k * s.samplePeriod = _
        ring

/-! ### The byte at the assembler -/

/-- The assembler after a byte that comes at an instant (R7, R8). -/
def Assembler.take (a : Assembler) (v : LinkByte) (expiry : Nat) : Assembler :=
  match a with
  | .hunting => if v = { value := 0xC5, fault := false } then .assembling [] expiry else .hunting
  | .assembling bytes e => .assembling (bytes ++ [v]) e

/-- With no complete frame waiting, a byte changes the assembler alone. -/
theorem deliverByte_eq {s : State} (h : s.intake.assembler.complete = none) (v : LinkByte) :
    deliverByte v s =
      s.setIntake { s.intake with assembler := s.intake.assembler.take v (s.clock.now + s.interval) } := by
  have hsync : v = { value := 0xC5, fault := false } ↔ v.value = Config.syncByte ∧ v.fault = false := by
    cases v
    exact LinkByte.mk.injEq ..  ▸ Iff.rfl
  unfold deliverByte
  rw [judgeComplete_of_none h]
  dsimp only
  cases ha : s.intake.assembler with
  | hunting =>
    simp only [Assembler.take, hsync]
    split
    · rfl
    · rw [← ha]
      rfl
  | assembling bytes e => rfl

/-- The last of a stretch's samples completes a byte, which reaches the assembler there. -/
theorem takeRun_of_byte {s : State} (hs : s.Settled) (hreset : s.resetHeld = false)
    (hnow : s.clock.now ≤ s.intake.nextSample) {level : Bool} {m : Nat}
    (ht : ∀ k d, s.timer k = some d → s.intake.nextSample + m * s.samplePeriod ≤ d) {rx : Receiver} {v : LinkByte}
    (hfirst : (rxRun level m s.intake.receiver).byte = none)
    (hrun : rxRun level (m + 1) s.intake.receiver = { receiver := rx, byte := some v, left := 0 }) :
    takeRun level (m + 1) s = (s.onLine level m rx).setIntake
      { (s.onLine level m rx).intake with
        assembler := s.intake.assembler.take v (s.intake.nextSample + m * s.samplePeriod + s.interval) } := by
  rw [takeRun_succ hs hreset hnow ht hfirst, ← rxRun_add level m 1 hfirst, hrun]
  exact deliverByte_eq (s := s.onLine level m rx) hs.1 v

/-- Up to its stop bit the line of a byte completes no byte. -/
theorem foldl_takeRun_lineToStop {s : State} (v : Byte) (hs : s.Settled) (hreset : s.resetHeld = false)
    (hnow : s.clock.now ≤ s.intake.nextSample) (hwaits : s.intake.receiver = { last := true, busy := none })
    (ht : ∀ k d, s.timer k = some d → s.intake.nextSample + 150 * s.samplePeriod ≤ d) :
    (lineToStop v).foldl (fun t x => takeRun x.1 x.2 t) s =
      s.onLine (v.getLsbD 7) 150 { last := v.getLsbD 7, busy := some { count := 143, bits := v } } := by
  have hline : rxLine (lineToStop v) s.intake.receiver [] =
      ({ last := v.getLsbD 7, busy := some { count := 143, bits := v } }, []) := by
    rw [hwaits]
    exact (congrArg (rxLine · _ []) (List.append_nil _)).symm.trans (rxLine_toStop v [])
  exact foldl_takeRun_of_none hs hreset hnow (by simp [lineToStop]) rfl ht hline

/-- The line of one byte reaches the assembler at the stop-bit sample, the hundred and sixtieth (R5, R7, R8). -/
theorem exec_byteDelivered {s : State} (v : Byte) (stop : Bool) (hs : s.Settled) (hreset : s.resetHeld = false)
    (hnow : s.clock.now ≤ s.intake.nextSample) (hwaits : s.intake.receiver = { last := true, busy := none })
    (ht : ∀ k d, s.timer k = some d → s.intake.nextSample + 159 * s.samplePeriod ≤ d) :
    exec (.byteDelivered (lineOfByte v stop)) s = .next ((s.onLine stop 159 { last := stop, busy := none }).setIntake
      { (s.onLine stop 159 { last := stop, busy := none }).intake with
        assembler := s.intake.assembler.take { value := v, fault := !stop }
          (s.intake.nextSample + 159 * s.samplePeriod + s.interval) }) := by
  have hearly : ∀ k d, s.timer k = some d → s.intake.nextSample + 150 * s.samplePeriod ≤ d := fun k d hk =>
    (Nat.add_le_add_left (Nat.mul_le_mul_right _ (by decide)) _).trans (ht k d hk)
  have hfirst := rxRun_count stop (v.getLsbD 7) (c := 143) v 7 fun j hlo hhi => by omega
  show (.next ((lineOfByte v stop).foldl (fun t x => takeRun x.1 x.2 t) s) : Host.Outcome State Fault Refusal) = _
  rw [lineOfByte_eq, List.foldl_append, foldl_takeRun_lineToStop v hs hreset hnow hwaits hearly, List.foldl_cons,
    List.foldl_nil]
  have hinstant : s.intake.nextSample + 151 * s.samplePeriod + 8 * s.samplePeriod =
      s.intake.nextSample + 159 * s.samplePeriod := by ring
  have hstop := takeRun_of_byte
    (s := s.onLine (v.getLsbD 7) 150 { last := v.getLsbD 7, busy := some { count := 143, bits := v } })
    hs hreset (Nat.add_le_add_left (Nat.mul_le_mul_right _ (by decide)) _) (m := 8)
    (fun k d hk => by
      rw [State.onLine_timer] at hk
      exact le_trans (le_of_eq hinstant) (ht k d hk))
    (congrArg RxRun.byte hfirst) (rxRun_stopBit stop _ v 0)
  rw [State.onLine_onLine] at hstop
  rw [hstop, ← hinstant]
  rfl

/-- A byte that is not the twelfth leaves no complete frame (R8). -/
theorem Assembler.take_complete {a : Assembler} (v : LinkByte) (expiry : Nat)
    (h : ∀ bytes e, a = .assembling bytes e → bytes.length < 11) : (a.take v expiry).complete = none := by
  cases a with
  | hunting =>
    rw [Assembler.take]
    split <;> rfl
  | assembling bytes e =>
    refine if_neg (Nat.not_le.2 ?_)
    rw [List.length_append]
    exact Nat.succ_lt_succ (h bytes e rfl)

/-- A byte starts the assembly timer or leaves it as it is (R8). -/
theorem Assembler.take_expiry {a : Assembler} {v : LinkByte} {expiry d : Nat}
    (h : (a.take v expiry).expiry = some d) : a.expiry = some d ∨ d = expiry := by
  cases a with
  | hunting =>
    rw [Assembler.take] at h
    split at h
    · exact .inr (Option.some.inj h).symm
    · cases h
  | assembling bytes e => exact .inl h

/-! ### Time that another command lets pass -/

section
variable {s : State} {target : Nat}

theorem State.nextTimer_filter (ht : ∀ k d, s.timer k = some d → target ≤ d) :
    (s.nextTimer.filter fun x => decide (x.2 < target)) = none := by
  rw [Option.filter_eq_none_iff]
  rintro ⟨k, d⟩ hk
  simpa using ht k d (State.nextTimer_timer hk)

/-- With no timer due, a byte that completes is delivered and settled, and time passes on from there. -/
theorem advanceLoop_of_byte (ht : ∀ k d, s.timer k = some d → target ≤ d) {rx : Receiver} {v : LinkByte} {left : Nat}
    (hrun : rxRun s.level (s.samplesBefore target) s.intake.receiver =
      { receiver := rx, byte := some v, left := left }) (fuel : Nat) :
    advanceLoop (fuel + 1) target s =
      advanceLoop fuel target (settle (sampleByte (s.samplesBefore target - left) rx v s)) := by
  rw [advanceLoop, State.nextTimer_filter ht, Option.map_none, Option.getD_none, hrun]

/-- With no timer due and no sample before the instant, only the clock moves. -/
theorem advanceLoop_of_none (ht : ∀ k d, s.timer k = some d → target ≤ d) (hnow : s.clock.now ≤ target)
    (hsample : target ≤ s.intake.nextSample) (fuel : Nat) : advanceLoop (fuel + 1) target s = s.setNow target := by
  rw [advanceLoop, State.nextTimer_filter ht, Option.map_none, Option.getD_none, State.samplesBefore_of_le hsample,
    Nat.max_eq_right hnow, State.afterSamples, Nat.zero_mul]
  rfl

/-- The samples before an instant reach to it: the last falls before it, and the next does not. -/
theorem State.samplesBefore_bounds (h : s.samplesBefore target ≠ 0) :
    s.intake.nextSample + (s.samplesBefore target - 1) * s.samplePeriod < target
      ∧ target ≤ s.intake.nextSample + s.samplesBefore target * s.samplePeriod := by
  have hlate : s.intake.nextSample < target := by
    by_contra hle
    exact h (State.samplesBefore_of_le (Nat.not_lt.1 hle))
  have hdiv : (target - s.intake.nextSample + s.settings.station.linkDivider) / s.samplePeriod =
      s.samplesBefore target := rfl
  have hperiod : s.samplePeriod = s.settings.station.linkDivider + 1 := rfl
  have hpos : 0 < s.samplePeriod := Nat.succ_pos _
  obtain ⟨n, hn⟩ : ∃ n, s.samplesBefore target = n + 1 := Nat.exists_eq_succ_of_ne_zero h
  rw [hn] at hdiv ⊢
  rw [Nat.div_eq_iff hpos] at hdiv
  obtain ⟨hlo, hhi⟩ := hdiv
  rw [Nat.add_mul, Nat.one_mul] at hlo hhi ⊢
  rw [Nat.add_sub_cancel]
  omega

/-- A frame interval is longer than a sample period (R5, R8). -/
theorem State.SettingsLegal.period_le_interval (h : s.SettingsLegal) : s.samplePeriod ≤ s.interval := by
  obtain ⟨⟨-, -, -, -, ⟨hlo, hhi⟩, -, hdivider⟩, -⟩ := h
  have hfps : 256 ≤ 24576000 / s.settings.station.fps := by
    rw [Nat.le_div_iff_mul_le (by omega)]
    omega
  exact (Nat.succ_le_succ hdivider).trans hfps

/-- The state at the sample, the last of n, that completes a byte. -/
def State.tookByte (s : State) (n : Nat) (rx : Receiver) (v : LinkByte) : State :=
  (s.setNow (s.intake.nextSample + (n - 1) * s.samplePeriod)).setIntake
    { s.intake with
      nextSample := s.intake.nextSample + n * s.samplePeriod
      receiver := rx
      assembler := s.intake.assembler.take v (s.intake.nextSample + (n - 1) * s.samplePeriod + s.interval) }

theorem sampleByte_eq (h : s.intake.assembler.complete = none) (hnow : s.clock.now ≤ s.intake.nextSample) (n : Nat)
    (rx : Receiver) (v : LinkByte) : sampleByte n rx v s = s.tookByte n rx v := by
  rw [sampleByte, Nat.max_eq_right (hnow.trans (Nat.le_add_right _ _))]
  exact deliverByte_eq (s := (s.setNow (s.intake.nextSample + (n - 1) * s.samplePeriod)).setIntake
    (s.afterSamples n rx)) h v

/-- Its timers are those there, or the assembly timer just started. -/
theorem State.tookByte_timer {n : Nat} {rx : Receiver} {v : LinkByte} {k : Timer} {d : Nat}
    (h : (s.tookByte n rx v).timer k = some d) :
    s.timer k = some d ∨ d = s.intake.nextSample + (n - 1) * s.samplePeriod + s.interval := by
  cases k with
  | assembly => exact Assembler.take_expiry h
  | link => exact .inl h
  | gapSlot => exact .inl h

/-- Time that passes up to an instant samples the line; the byte that the last sample before it completes reaches the
assembler at that sample (R5, R7, R8). -/
theorem advanceTo_of_byte {rx : Receiver} {v : LinkByte} (hs : s.Settled) (hnow : s.clock.now ≤ s.intake.nextSample)
    (hrun : rxRun s.level (s.samplesBefore target) s.intake.receiver =
      { receiver := rx, byte := some v, left := 0 })
    (ht : ∀ k d, s.timer k = some d → target ≤ d) (hlegal : s.SettingsLegal)
    (hshort : ∀ bytes e, s.intake.assembler = .assembling bytes e → bytes.length < 11) :
    advanceTo target s = (s.tookByte (s.samplesBefore target) rx v).setNow target := by
  have hsome : s.samplesBefore target ≠ 0 := by
    intro h0
    rw [h0] at hrun
    cases hrun
  obtain ⟨hlast, hnext⟩ := State.samplesBefore_bounds hsome
  have hlater : s.clock.now < target := (hnow.trans (Nat.le_add_right _ _)).trans_lt hlast
  have htook : (s.tookByte (s.samplesBefore target) rx v).Settled := ⟨Assembler.take_complete v _ hshort, hs.2⟩
  have htimer : ∀ k d, (s.tookByte (s.samplesBefore target) rx v).timer k = some d → target ≤ d := by
    intro k d hk
    rcases State.tookByte_timer hk with hk | rfl
    · exact ht k d hk
    · have hperiod := hlegal.period_le_interval
      obtain ⟨n, hn⟩ : ∃ n, s.samplesBefore target = n + 1 := Nat.exists_eq_succ_of_ne_zero hsome
      rw [hn, Nat.add_mul, Nat.one_mul] at hnext
      rw [hn, Nat.add_sub_cancel]
      omega
  rw [advanceTo, if_pos hlater, settle_of_settled hs, advanceLoop_of_byte ht hrun, Nat.sub_zero,
    sampleByte_eq hs.1 hnow, settle_of_settled htook, advanceLoop_of_none htimer hlast.le hnext]

end

/-- A mark with no slot to anchor it only lets time pass (R24). -/
theorem exec_timeMark_of_none {s : State} {after : Nat}
    (h : (settleOwed (advanceTo (s.clock.now + after) s)).ring.newest = none) :
    exec (.timeMark after) s = .next (settleOwed (advanceTo (s.clock.now + after) s)) := by
  show execTimeMark after s = _
  unfold execTimeMark
  dsimp only
  rw [h]

/-- Settles O28: the line of a byte stretch by stretch, and the samples that a mark's wait takes. -/
theorem bytesReachTheAssembler : Obligations.BytesReachTheAssembler := by
  refine ⟨?_, ?_⟩
  · rintro v stop s late period hs hreset hwaits hnow rfl rfl ht
    have hsync : ((⟨v, !stop⟩ : LinkByte) = { value := 0xC5, fault := false }) = (v = 0xC5 ∧ stop = true) := by simp
    have hnext : s.intake.nextSample + 159 * s.samplePeriod + s.samplePeriod =
        s.intake.nextSample + (159 + 1) * s.samplePeriod := by ring
    rw [exec_byteDelivered v stop hs hreset hnow hwaits ht]
    simp only [Assembler.take, hsync]
    show _ = Host.Outcome.next ((s.setNow _).setIntake
      { s.intake with line := stop, nextSample := s.intake.nextSample + 159 * s.samplePeriod + s.samplePeriod
                      receiver := _, assembler := _ })
    rw [hnext]
    rfl
  · rintro v s after late n rx hs hnewest hnow rfl rfl hrun ht hlegal hshort
    have htook := advanceTo_of_byte hs hnow hrun ht hlegal hshort
    have hsettled : settleOwed (advanceTo (s.clock.now + after) s) = advanceTo (s.clock.now + after) s :=
      settleOwed_of_nothing (by rw [htook]; exact hs.2.2)
    rw [exec_timeMark_of_none (by rw [hsettled, htook]; exact hnewest), hsettled, htook]
    rfl

end Sys2Proof.Machine
end

section
/-! SET STATION (R6, R20, R162 to R164, R166): the station settings as the request's bytes carry them, the acceptance,
and a changed divider with the link in RUNNING. -/

namespace Sys2Proof.Machine

/-! ### The bytes of a request (R172, R174) -/

/-- A number below 256 is the sum of its eight binary digits. -/
theorem sum_of_digits {n : Nat} (h : n < 256) :
    128 * (n / 2 ^ 7 % 2) + 64 * (n / 2 ^ 6 % 2) + 32 * (n / 2 ^ 5 % 2) + 16 * (n / 2 ^ 4 % 2)
      + 8 * (n / 2 ^ 3 % 2) + 4 * (n / 2 ^ 2 % 2) + 2 * (n / 2 ^ 1 % 2) + n / 2 ^ 0 % 2 = n := by
  have hdigit : ∀ i, 2 * (n / 2 ^ (i + 1)) + n / 2 ^ i % 2 = n / 2 ^ i := fun i => by
    rw [Nat.pow_succ, ← Nat.div_div_eq_div_mul, Nat.div_add_mod]
  have htop : n / 2 ^ 8 = 0 := Nat.div_eq_of_lt h
  have h0 := hdigit 0
  rw [Nat.pow_zero, Nat.div_one] at h0 ⊢
  linarith [hdigit 1, hdigit 2, hdigit 3, hdigit 4, hdigit 5, hdigit 6, hdigit 7]

theorem byteOfBits_getLsbD (v : Byte) :
    byteOfBits (v.getLsbD 7) (v.getLsbD 6) (v.getLsbD 5) (v.getLsbD 4) (v.getLsbD 3) (v.getLsbD 2) (v.getLsbD 1)
      (v.getLsbD 0) = v := by
  simp only [byteOfBits, BitVec.getLsbD, Nat.toNat_testBit]
  rw [sum_of_digits v.isLt, BitVec.ofNat_toNat, BitVec.setWidth_eq]

/-- The whole bytes come back from their bits, whatever bits follow. -/
theorem wholeBytes_bitsOfBytes (bs : List Byte) (more : List Bool) :
    wholeBytes (bitsOfBytes bs ++ more) = bs ++ wholeBytes more := by
  induction bs with
  | nil => rfl
  | cons v bs ih =>
    have hbits : bitsOfBytes (v :: bs) ++ more = bitsOfByte v ++ (bitsOfBytes bs ++ more) := by
      rw [bitsOfBytes, List.flatMap_cons, List.append_assoc]
      rfl
    rw [hbits, List.cons_append, ← ih]
    exact congrArg (· :: _) (byteOfBits_getLsbD v)

/-- The 16-bit numbers come back from their bytes. -/
theorem words16_flatMap {ws : List Nat} (h : ∀ x ∈ ws, x < 65536) (more : List Byte) :
    words16 (ws.flatMap (fun x => [BitVec.ofNat 8 (x / 256), BitVec.ofNat 8 x]) ++ more) = ws ++ words16 more := by
  induction ws with
  | nil => rfl
  | cons x ws ih =>
    obtain ⟨hx, hws⟩ := List.forall_mem_cons.1 h
    have hword : word16 (BitVec.ofNat 8 (x / 256)) (BitVec.ofNat 8 x) = x := by
      simp only [word16, BitVec.toNat_ofNat]
      omega
    rw [List.cons_append, ← ih hws]
    exact congrArg (· :: _) hword

theorem stationOfWords_stationWords (x : Station) (more : List Nat) :
    stationOfWords (stationWords x ++ more) = x := rfl

/-! ### The request at a port that executes it -/

theorem onlyDividerDiffers_iff (x y : Station) :
    onlyDividerDiffers x y = true ↔ x = { y with linkDivider := x.linkDivider } := by
  rw [onlyDividerDiffers, decide_eq_true_iff]
  cases x
  cases y
  simp only [Station.mk.injEq, and_true]

section
variable {s : State} {p : Port} {rest more : List Bool} {written : Station}

theorem respond_openTransaction (p : Port) (clocks : Nat) (r : Response) (s : State) :
    respond p r (openTransaction p clocks s) = s.answered p clocks r := by
  cases p <;> rfl

/-- With nothing owed, and no frame complete or in hand where the divider changes, nothing comes before SET STATION. -/
theorem settleForStation_of_nothing {x : Station} (howed : s.owed = Owed.nothing)
    (h : x.linkDivider = s.settings.station.linkDivider ∨ s.Settled) : settleForStation x s = s := by
  unfold settleForStation
  split
  · exact settleOwed_of_nothing howed
  · rename_i hne
    exact settle_of_settled (h.resolve_left hne)

/-- The request's fourteen bytes are the settings written; its body runs on the state with the old response shifted
out. -/
theorem exec_setStation (hopen : s.PortsOpen) (howed : s.owed = Owed.nothing)
    (hwords : ∀ x ∈ stationWords written, x < 65536)
    (hrest : rest = bitsOfBytes ((stationWords written).flatMap
      fun x => [BitVec.ofNat 8 (x / 256), BitVec.ofNat 8 x]) ++ more)
    (h : (clampStation written).linkDivider = s.settings.station.linkDivider ∨ s.Settled) :
    exec (.setStation p rest) s =
      .next (respond p (setStationBody p written (openTransaction p (8 + rest.length) s)).2
        (setStationBody p written (openTransaction p (8 + rest.length) s)).1) := by
  have hbytes : wholeBytes rest = (stationWords written).flatMap
      (fun x => [BitVec.ofNat 8 (x / 256), BitVec.ofNat 8 x]) ++ wholeBytes more := by
    rw [hrest, wholeBytes_bitsOfBytes]
  have hlong : ¬ (wholeBytes rest).length < 14 := by
    rw [hbytes, List.length_append]
    exact Nat.not_lt.2 (Nat.le_add_right 14 _)
  have hsettled : settleForStation (clampStation written) (openTransaction p (8 + rest.length) s) =
      openTransaction p (8 + rest.length) s := settleForStation_of_nothing howed h
  show execSetStation p rest s = _
  rw [execSetStation, if_neg hlong, hbytes, words16_flatMap hwords, stationOfWords_stationWords]
  dsimp only
  rw [transact_of_open hopen, requestClocks, hsettled]

/-- The settings in force, the generation and the notice of an accepted request (R163, R166). -/
def State.acceptedStation (s : State) (p : Port) (x : Station) : State :=
  raise .settings p.other
    { s with settings := { s.settings with station := x, generation := s.settings.generation + 1 } }

theorem respond_acceptedStation (p : Port) (clocks : Nat) (r : Response) (x : Station) (s : State) :
    respond p r ((openTransaction p clocks s).acceptedStation p x) = (s.answered p clocks r).acceptedStation p x := by
  cases p <;> rfl

theorem acceptStation_of_same {x : Station} (h : x.linkDivider = s.settings.station.linkDivider) :
    acceptStation p x s = s.acceptedStation p x := if_pos h

theorem acceptStation_of_changed {x : Station} (h : x.linkDivider ≠ s.settings.station.linkDivider) :
    acceptStation p x s = changeDivider (s.acceptedStation p x) := if_neg h

/-- Frame Intake as a changed divider restarts it (R6). -/
def State.restartedIntake (s : State) : FrameIntake :=
  { s.intake with
    nextSample := s.clock.now + s.samplePeriod
    receiver := { s.intake.receiver with busy := none }
    assembler := .hunting }

theorem changeDivider_of_not_running (h : s.intake.link ≠ .running) :
    changeDivider s = s.setIntake s.restartedIntake := by
  unfold changeDivider
  dsimp only
  split
  · rename_i hlink
    exact absurd hlink h
  all_goals rfl

/-- Frame Intake as a changed divider leaves it for LOST (R6, R20). -/
def State.lostIntake (s : State) : FrameIntake :=
  { s.restartedIntake with
    link := .lost, expected := none, linkTimer := none, gapSlotTimer := some (s.clock.now + s.interval) }

/-- A changed divider takes a RUNNING link to LOST (R20). -/
theorem changeDivider_of_running {last : Reading} (h : s.intake.link = .running)
    (hlast : s.intake.lastGood = some last) :
    changeDivider s = intakeRecord .begins (writeSlot .gap last (s.setIntake s.lostIntake)) := by
  unfold changeDivider
  rw [h]
  exact enterLost_eq hlast

theorem acceptedStation_noticed (p : Port) (x : Station) (s : State) :
    (s.acceptedStation p x).Noticed .settings p.other := by
  rw [State.Noticed, State.acceptedStation, raise, State.setPort_ports, Ports.get_set_same, noticeIn_noticeAdd,
    decide_eq_true rfl, Bool.or_true]

theorem respond_lost (p : Port) (clocks : Nat) (r : Response) (x : Station) (s : State) :
    respond p r (((openTransaction p clocks s).acceptedStation p x).setIntake
        ((openTransaction p clocks s).acceptedStation p x).lostIntake) =
      ((s.answered p clocks r).acceptedStation p x).setIntake
        ((s.answered p clocks r).acceptedStation p x).lostIntake := by
  rw [← respond_acceptedStation]
  rfl

/-- The response put in place at the end comes to the same as put in place before the slot write (R173). -/
theorem respond_intakeRecord_writeSlot (p : Port) (r : Response) (x : IntakeType) (k : SlotKind) (last : Reading)
    (s : State) :
    respond p r (intakeRecord x (writeSlot k last s)) = intakeRecord x (writeSlot k last (respond p r s)) := by
  have hwritten := (respond_alike p r).writeSlot k last (s := s) rfl
  have hindex : (writeSlot k last (respond p r s)).newestOr = (writeSlot k last s).newestOr := by
    rw [writeSlot_newestOr, writeSlot_newestOr]
    rfl
  rw [intakeRecord, intakeRecord, hindex]
  exact ((respond_alike p r).raiseBoth .intake (fun _ => trivial)
    ((respond_alike p r).insertRecord _ (fun _ _ => trivial) hwritten)).symm

theorem setStationBody_of_accepted
    (h : s.settings.core = .stopped
      ∨ clampStation written = { s.settings.station with linkDivider := (clampStation written).linkDivider }) :
    setStationBody p written s =
      (acceptStation p (clampStation written) s,
        .stationSet (decide (clampStation written ≠ written)) (s.settings.generation + 1)) := by
  rw [← onlyDividerDiffers_iff] at h
  exact if_pos h

theorem setStationBody_of_busy (hcore : s.settings.core = .running)
    (h : clampStation written ≠ { s.settings.station with linkDivider := (clampStation written).linkDivider }) :
    setStationBody p written s = (s, .busy) := by
  refine if_neg ?_
  rw [onlyDividerDiffers_iff, hcore]
  rintro (h' | h')
  · cases h'
  · exact h h'

end

theorem Raised.response {i j : PortInterface} (h : Raised i j) : j.response = i.response := by rw [h.1]

/-- Settles O58: the request's bytes, the acceptance, and a changed divider with the link in RUNNING or not. -/
theorem setStationIsAcceptedOrBusy : Obligations.SetStationIsAcceptedOrBusy := by
  rintro s p rest more written given accepted hopen howed hwords hrest rfl haccepted
  have hexec := exec_setStation (p := p) hopen howed hwords hrest
  have haccepted : accepted = (s.answered p (8 + rest.length)
      (.stationSet (decide (clampStation written ≠ written)) (s.settings.generation + 1))).acceptedStation p
        (clampStation written) := haccepted
  refine ⟨fun hcore hcause hother => ?_, fun hcause => ⟨fun hsame => ?_, fun hchanged hs hlink => ?_,
    fun last hchanged hs hlink hlast => ?_⟩⟩
  · rw [hexec hcause, setStationBody_of_busy (s := openTransaction p _ s) hcore hother, respond_openTransaction]
  · rw [hexec (.inl hsame), setStationBody_of_accepted (s := openTransaction p _ s) hcause,
      acceptStation_of_same (s := openTransaction p _ s) hsame, respond_acceptedStation, haccepted]
    rfl
  · rw [hexec (.inr hs), setStationBody_of_accepted (s := openTransaction p _ s) hcause,
      acceptStation_of_changed (s := openTransaction p _ s) hchanged,
      changeDivider_of_not_running (s := (openTransaction p _ s).acceptedStation p _) hlink, haccepted,
      ← respond_acceptedStation]
    rfl
  · have hresult : exec (.setStation p rest) s =
        .next (intakeRecord .begins (writeSlot .gap last (accepted.setIntake accepted.lostIntake))) := by
      rw [hexec (.inr hs), setStationBody_of_accepted (s := openTransaction p _ s) hcause,
        acceptStation_of_changed (s := openTransaction p _ s) hchanged,
        changeDivider_of_running (s := (openTransaction p _ s).acceptedStation p _) hlink hlast,
        respond_intakeRecord_writeSlot, respond_lost, haccepted]
      rfl
    have hframe := intakeRecord_frame .begins (writeSlot .gap last (accepted.setIntake accepted.lostIntake))
    have hports := fun q =>
      ((writeSlot_frame .gap last (accepted.setIntake accepted.lostIntake)).ports q).trans (hframe.ports q)
    subst haccepted
    exact ⟨_, hresult, hframe.settings.trans (writeSlot_settings _ _ _),
      congrArg (fun t : State => { t with ports := s.ports }) (intakeRecord_writeSlot _ _ _ _),
      hframe.intake.trans (writeSlot_intake _ _ _), hframe.sameStream.wroteSlot (writeSlot_wroteSlot _ _ _),
      intakeRecord_hasRecord _ _ _ _, intakeRecord_noticed _ _, (hports _).2 _ (acceptedStation_noticed _ _ _),
      (hports p).response⟩

end Sys2Proof.Machine
end

section
/-! Time marks and the timing state (R23 to R31): a change of timing state with its record and notice, what the watch
and the holdover limit do, the table of a mark, and what a mark finds settled. -/

namespace Sys2Proof.Machine

/-! ### A change of timing state (R30) -/

theorem newestOr_of_newest {s : State} {n : Newest} (h : s.ring.newest = some n) : s.newestOr = n.index :=
  newestOr_of_newestIndex (congrArg (Option.map Newest.index) h)

/-- Beside the Time Mark Unit a change of timing state reaches the list, the readers and the notices only. -/
theorem changeTiming_onlyRecords (x : TimingState) (c : Nat) (s : State) :
    OnlyRecords (s.setTmu { s.tmu with timing := x, holdover := c }) (changeTiming x c s) :=
  (insertRecord_frame _ _ _).trans (raiseBoth_frame _ _)

theorem changeTiming_sameCore (x : TimingState) (c : Nat) (s : State) : s.SameCore (changeTiming x c s) :=
  have h := changeTiming_frame x c s
  ⟨h.intake, h.filters, h.ring, h.settings, h.clock, h.resetHeld, h.pending⟩

theorem changeTiming_noticed (x : TimingState) (c : Nat) (s : State) (p : Port) :
    (changeTiming x c s).Noticed .timing p := raiseBoth_noticed .timing _ p

section
variable {s : State} {n : Newest}

theorem changeTiming_eq (hnewest : s.ring.newest = some n) (x : TimingState) (c : Nat) :
    changeTiming x c s = raise .timing .b (raise .timing .a (insertRecord n.index
      (.timing { timing := x, latest := s.tmu.latest, previous := s.tmu.previous })
      (s.setTmu { s.tmu with timing := x, holdover := c }))) := by
  rw [changeTiming, newestOr_of_newest hnewest, raiseBoth]

theorem changeTiming_hasRecord (hnewest : s.ring.newest = some n) (x : TimingState) (c : Nat) :
    (changeTiming x c s).HasRecord n.index
      (.timing { timing := x, latest := s.tmu.latest, previous := s.tmu.previous }) := by
  rw [State.HasRecord, changeTiming, newestOr_of_newest hnewest, raiseBoth_list]
  exact insertRecord_hasRecord _ _ _

/-! ### The watch and the holdover limit (R27 to R29) -/

theorem State.watchDue_of_reached (hlocked : s.tmu.timing = .locked) {m : Anchor} (hlatest : s.tmu.latest = some m)
    (hnewest : s.ring.newest = some n) (hlength : 3 * s.settings.station.fps / 2 ≤ (n.index - m.index).toNat) :
    s.watchDue = true :=
  s.watchDue_iff.2 ⟨hlocked, m, hlatest, by rwa [newestOr_of_newest hnewest]⟩

theorem State.watchDue_of_not_reached
    (h : s.tmu.timing ≠ .locked ∨ s.tmu.latest = none
      ∨ ∃ (m : Anchor) (n : Newest), s.tmu.latest = some m ∧ s.ring.newest = some n
        ∧ (n.index - m.index).toNat < 3 * s.settings.station.fps / 2) :
    s.watchDue = false := by
  refine Bool.eq_false_iff.2 fun hdue => ?_
  obtain ⟨hlocked, m, hlatest, hreached⟩ := s.watchDue_iff.1 hdue
  rcases h with h | h | ⟨m', n, hlatest', hnewest, hshort⟩
  · exact h hlocked
  · cases hlatest.symm.trans h
  · cases hlatest.symm.trans hlatest'
    rw [newestOr_of_newest hnewest] at hreached
    exact Nat.not_le.2 hshort hreached

theorem State.holdoverDue_of_not_reached
    (h : s.tmu.timing ≠ .holdover
      ∨ s.tmu.holdover < s.settings.station.holdoverLimit * s.settings.station.fps + 1) : s.holdoverDue = false := by
  refine Bool.eq_false_iff.2 fun hdue => ?_
  obtain ⟨hholdover, hreached⟩ := s.holdoverDue_iff.1 hdue
  exact h.elim (· hholdover) (Nat.not_lt.2 hreached)

/-- In HOLDOVER the watch is not due, so the limit acts (R28). -/
theorem timingFinish_of_holdoverDue (howed : s.owed.timing = true) (h : s.holdoverDue = true) :
    timingFinish s = (changeTiming .free s.tmu.holdover s).setOwed { s.owed with timing := false } := by
  have hwatch : s.watchDue = false := by
    refine State.watchDue_of_not_reached (.inl ?_)
    rw [(s.holdoverDue_iff.1 h).1]
    decide
  exact timingFinish_of_limit howed hwatch h

theorem exec_watchExpiry (h : s.NothingBegun) :
    exec .watchExpiry s = .next (if s.watchDue then timingFinish s else s) := by
  show execWatchExpiry s = _
  rw [execWatchExpiry, finishBegun_of_nothingBegun h]

theorem exec_holdoverExpiry (h : s.NothingBegun) :
    exec .holdoverExpiry s = .next (if s.holdoverDue then timingFinish s else s) := by
  show execHoldoverExpiry s = _
  rw [execHoldoverExpiry, finishBegun_of_nothingBegun h]

/-- An expiry that is not owed, or not due, changes nothing (the model's choice, notes/assumptions/5.md). -/
theorem timingFinish_of_no_cause {due : Bool} (h : s.owed.timing = false ∨ due = false) :
    (if due then timingFinish s else s) = s := by
  rcases h with h | rfl
  · rw [timingFinish_of_none h, ite_self]
  · rfl

end

/-- Settles O35: each expiry is the change of timing state where it is due, and nothing where it is not. -/
theorem watchAndHoldoverExpire : Obligations.WatchAndHoldoverExpire := by
  intro s hbegun
  refine ⟨fun m n howed hlocked hlatest hnewest hlength => ?_, fun n howed hholdover hnewest hcount => ?_,
    fun h => ?_, fun h => ?_⟩
  · have hdue := State.watchDue_of_reached hlocked hlatest hnewest hlength
    have hframe := changeTiming_onlyRecords .holdover 0 s
    refine ⟨(changeTiming .holdover 0 s).setOwed { s.owed with timing := false }, ?_, ?_, hframe.tmu,
      changeTiming_hasRecord hnewest _ _, changeTiming_noticed _ _ s, rfl, changeTiming_sameCore _ _ s, hframe.units,
      hframe.refiner⟩
    · rw [exec_watchExpiry hbegun, if_pos hdue, timingFinish_of_watch howed hdue]
    · rw [changeTiming_eq hnewest]
  · have hdue := s.holdoverDue_iff.2 ⟨hholdover, hcount⟩
    have hframe := changeTiming_onlyRecords .free s.tmu.holdover s
    refine ⟨(changeTiming .free s.tmu.holdover s).setOwed { s.owed with timing := false }, ?_, ?_, hframe.tmu,
      changeTiming_hasRecord hnewest _ _, changeTiming_noticed _ _ s, rfl, changeTiming_sameCore _ _ s, hframe.units,
      hframe.refiner⟩
    · rw [exec_holdoverExpiry hbegun, if_pos hdue, timingFinish_of_holdoverDue howed hdue]
    · rw [changeTiming_eq hnewest]
  · rw [exec_watchExpiry hbegun, timingFinish_of_no_cause (h.imp_right State.watchDue_of_not_reached)]
  · rw [exec_holdoverExpiry hbegun, timingFinish_of_no_cause (h.imp_right State.holdoverDue_of_not_reached)]

end Sys2Proof.Machine
end

section
/-! TIME_MARK (R23 to R28, R30, R31): what a mark finds settled, the mark and the table of the timing states, and the
events of the same slot write that may come before it. -/

namespace Sys2Proof.Machine

/-! ### What settling does to the Time Mark Unit (R27, R28, R31) -/

theorem timingFinish_latest (s : State) : (timingFinish s).tmu.latest = s.tmu.latest := by
  have hchange : ∀ x c, (changeTiming x c s).tmu.latest = s.tmu.latest := fun x c => by
    rw [(changeTiming_onlyRecords x c s).tmu]
    rfl
  unfold timingFinish
  split
  · split
    · exact hchange _ _
    · split
      · exact hchange _ _
      · rfl
  · rfl

/-- What is settled may change the timing state, never the latest mark. -/
theorem settleOwed_latest (s : State) : (settleOwed s).tmu.latest = s.tmu.latest := by
  obtain ⟨t, hkeeps, -, hsettled⟩ := settleOwed_timing s
  rw [hsettled, State.setOwed_tmu, timingFinish_latest, hkeeps.1]

theorem settleOwed_tmu_of_none {s : State} (h : s.owed.timing = false) : (settleOwed s).tmu = s.tmu := by
  obtain ⟨t, hkeeps, -, hsettled⟩ := settleOwed_timing s
  rw [hsettled, timingFinish_of_none (hkeeps.2.trans h)]
  exact hkeeps.1

theorem KeepsTmu.watchDue {s t : State} (h : KeepsTmu s t) (g : OnlySettled s t) : t.watchDue = s.watchDue := by
  rw [State.watchDue, State.watchDue, State.newestOr, State.newestOr, h.1, g.ring, g.settings]

theorem KeepsTmu.holdoverDue {s t : State} (h : KeepsTmu s t) (g : OnlySettled s t) :
    t.holdoverDue = s.holdoverDue := by
  rw [State.holdoverDue, State.holdoverDue, h.1, g.settings]

theorem State.setOwed_hasRecord (s : State) (o : Owed) (key : Index) (d : Detail) :
    (s.setOwed o).HasRecord key d ↔ s.HasRecord key d := Iff.rfl

theorem State.setOwed_noticed (s : State) (o : Owed) (x : Notice) (p : Port) :
    (s.setOwed o).Noticed x p ↔ s.Noticed x p := Iff.rfl

/-- The Time Mark Unit's own handling, a change of timing state on each state the other handlings may leave, is what
settling does to it. -/
theorem settleOwed_of_change {s : State} {n : Newest} {x : TimingState} {c : Nat} (hnewest : s.ring.newest = some n)
    (h : ∀ t, KeepsTmu s t → OnlySettled s t →
      timingFinish t = (changeTiming x c t).setOwed { t.owed with timing := false }) :
    (settleOwed s).tmu = { s.tmu with timing := x, holdover := c }
      ∧ (settleOwed s).HasRecord n.index
          (.timing { timing := x, latest := s.tmu.latest, previous := s.tmu.previous })
      ∧ ∀ p, (settleOwed s).Noticed .timing p := by
  obtain ⟨t, hkeeps, hframe, hsettled⟩ := settleOwed_timing s
  simp only [hsettled, h t hkeeps hframe, State.setOwed_tmu, State.setOwed_hasRecord, State.setOwed_noticed]
  rw [← hkeeps.1]
  exact ⟨(changeTiming_onlyRecords x c t).tmu, changeTiming_hasRecord (hframe.ring.symm ▸ hnewest) x c,
    changeTiming_noticed x c t⟩

theorem settleOwed_of_watchDue {s : State} {n : Newest} (hnewest : s.ring.newest = some n)
    (howed : s.owed.timing = true) (h : s.watchDue = true) :
    (settleOwed s).tmu = { s.tmu with timing := .holdover, holdover := 0 }
      ∧ (settleOwed s).HasRecord n.index
          (.timing { timing := .holdover, latest := s.tmu.latest, previous := s.tmu.previous })
      ∧ ∀ p, (settleOwed s).Noticed .timing p :=
  settleOwed_of_change hnewest fun _ hkeeps hframe =>
    timingFinish_of_watch (hkeeps.2.trans howed) ((hkeeps.watchDue hframe).trans h)

theorem settleOwed_of_holdoverDue {s : State} {n : Newest} (hnewest : s.ring.newest = some n)
    (howed : s.owed.timing = true) (h : s.holdoverDue = true) :
    (settleOwed s).tmu = { s.tmu with timing := .free }
      ∧ (settleOwed s).HasRecord n.index
          (.timing { timing := .free, latest := s.tmu.latest, previous := s.tmu.previous })
      ∧ ∀ p, (settleOwed s).Noticed .timing p :=
  settleOwed_of_change (c := s.tmu.holdover) hnewest fun _ hkeeps hframe => by
    rw [timingFinish_of_holdoverDue (hkeeps.2.trans howed) ((hkeeps.holdoverDue hframe).trans h), hkeeps.1]

/-! ### Events of the slot write that the queue names before the mark (R31) -/

theorem exec_timeMark_now_congr {s v : State} (h : settleOwed v = settleOwed s) :
    exec (.timeMark 0) v = exec (.timeMark 0) s := by
  have hring : v.ring = s.ring := by rw [← (settleOwed_frame v).ring, h, (settleOwed_frame s).ring]
  show execTimeMark 0 v = execTimeMark 0 s
  rw [execTimeMark_now, execTimeMark_now, h, hring]

theorem unitFinish_owed (b : Band) (s : State) : (unitFinish b s).owed = s.owed.unitDone b := by
  unfold unitFinish
  split
  · show (unitAct (s.unitDue b) b s).owed.unitDone b = _
    rw [(unitAct_frame _ b s).owed]
  · rename_i h
    rw [Owed.unitDone, ← Bool.eq_false_iff.2 h, Bands.set_get]

/-- A unit's handling taken first is the one that settling takes first: no unit before it owes anything, and a second
handling changes nothing. -/
theorem settleOwed_unitFinish {s : State} {b : Band} (hbegun : s.NothingBegun)
    (hearlier : ∀ earlier : Band, earlier.number < b.number → s.owed.units.get earlier = false) :
    settleOwed (unitFinish b s) = settleOwed s := by
  have howed := unitFinish_owed b s
  have hbegun' : (unitFinish b s).NothingBegun := by
    rw [State.NothingBegun, howed]
    exact hbegun
  have hagain : unitFinish b (unitFinish b s) = unitFinish b s := by
    refine unitFinish_of_none ?_
    rw [howed]
    exact Bands.get_set_same _ b false
  have hskip : ∀ earlier : Band, earlier.number < b.number →
      unitFinish earlier s = s ∧ unitFinish earlier (unitFinish b s) = unitFinish b s := by
    intro earlier hlt
    have hne : earlier ≠ b := fun h => Nat.lt_irrefl _ (h ▸ hlt)
    refine ⟨unitFinish_of_none (hearlier earlier hlt), unitFinish_of_none ?_⟩
    rw [howed]
    exact (Bands.get_set_other _ false hne).trans (hearlier earlier hlt)
  unfold settleOwed
  rw [finishBegun_of_nothingBegun hbegun, finishBegun_of_nothingBegun hbegun']
  cases b with
  | b0 => rw [hagain]
  | b1 =>
    obtain ⟨h0, h0'⟩ := hskip .b0 (by decide)
    rw [h0, h0', hagain]
  | b2 =>
    obtain ⟨h0, h0'⟩ := hskip .b0 (by decide)
    obtain ⟨h1, h1'⟩ := hskip .b1 (by decide)
    rw [h0, h1, h0', h1', hagain]

theorem settleOwed_unitRow {s : State} {b : Band} (hbegun : s.NothingBegun)
    (hearlier : ∀ earlier : Band, earlier.number < b.number → s.owed.units.get earlier = false) (d : UnitDue) :
    settleOwed (unitRow d b s) = settleOwed s := by
  unfold unitRow
  split
  · exact settleOwed_unitFinish hbegun hearlier
  · rfl

/-- With the units, the refiner and the list done, settling takes the Time Mark Unit's handling only. -/
theorem settleOwed_of_timing {s : State} (hunits : ∀ b, s.owed.units.get b = false)
    (hrefiner : s.owed.refiner = .done) (hlist : s.owed.list = .done) :
    settleOwed s = (timingFinish s).setOwed Owed.nothing := by
  have hunit : ∀ b, unitFinish b s = s := fun b => unitFinish_of_none (hunits b)
  unfold settleOwed
  rw [finishBegun_of_nothing (.inr hrefiner) (.inr hlist), hunit, hunit, hunit, refinerFinish_of_done hrefiner,
    listFinish_of_done hlist]

theorem settleOwed_timingFinish {s : State} (hunits : ∀ b, s.owed.units.get b = false)
    (hrefiner : s.owed.refiner = .done) (hlist : s.owed.list = .done) (due : Bool) :
    settleOwed (if due then timingFinish s else s) = settleOwed s := by
  have howed := timingFinish_owed s
  split
  · rw [settleOwed_of_timing hunits hrefiner hlist,
      settleOwed_of_timing (by rw [howed]; exact hunits) (by rw [howed]; exact hrefiner) (by rw [howed]; exact hlist),
      timingFinish_timingFinish]
  · rfl

/-! ### The table of the timing states (R26) -/

theorem timingAfterMark_of_two (x : TimingState) (c : Nat) :
    timingAfterMark x c true true = (.locked, if x = .locked then c else 0) := by
  cases x <;> rfl

theorem timingAfterMark_of_locked (c : Nat) (regular two : Bool) :
    timingAfterMark .locked c regular two = if regular then (.locked, c) else (.holdover, 0) := rfl

theorem timingAfterMark_of_not_locked {x : TimingState} (h : x ≠ .locked) (c : Nat) (regular : Bool) :
    timingAfterMark x c regular false = (x, c) := by
  cases x with
  | locked => exact absurd rfl h
  | none | holdover | free => rfl

/-! ### A mark latched (R24, R25, R30) -/

/-- Whether the new mark and the one before it are regular (R26). -/
def State.twoRegular (s : State) (i : Index) : Bool :=
  markRegular s.settings.station.fps s.tmu.latest i && (s.tmu.latest.map Anchor.regular).getD false

/-- The mark as it enters the anchor table (R24, R25). -/
def State.markAt (s : State) (n : Newest) : Anchor where
  index := n.index
  phase := markPhase (s.clock.now - n.accepted) s.interval
  regular := markRegular s.settings.station.fps s.tmu.latest n.index

/-- The timing state and the holdover count after the mark (R26). -/
def State.afterMark (s : State) (i : Index) : TimingState × Nat :=
  timingAfterMark s.tmu.timing s.tmu.holdover (markRegular s.settings.station.fps s.tmu.latest i) (s.twoRegular i)

/-- The Time Mark Unit after the mark. -/
def State.markedTmu (s : State) (n : Newest) : TimeMarkUnit where
  timing := (s.afterMark n.index).1
  latest := some (s.markAt n)
  previous := s.tmu.latest
  holdover := (s.afterMark n.index).2

/-- The mark in the anchor table, with the timing state still as it was. -/
def State.enteredMark (s : State) (n : Newest) : State :=
  s.setTmu { s.tmu with latest := some (s.markAt n), previous := s.tmu.latest }

theorem latchMark_of_kept {n : Newest} {s : State} (h : (s.markedTmu n).timing = s.tmu.timing) :
    latchMark n s = s.setTmu (s.markedTmu n) :=
  (if_pos h).trans (congrArg (fun x => s.setTmu { s.markedTmu n with timing := x }) h.symm)

theorem latchMark_of_changed {n : Newest} {s : State} (h : (s.markedTmu n).timing ≠ s.tmu.timing) :
    latchMark n s = changeTiming (s.markedTmu n).timing (s.markedTmu n).holdover (s.enteredMark n) := if_neg h

theorem latchMark_onlyRecords (n : Newest) (s : State) :
    OnlyRecords (s.setTmu (s.markedTmu n)) (latchMark n s) := by
  by_cases h : (s.markedTmu n).timing = s.tmu.timing
  · rw [latchMark_of_kept h]
    exact .refl _
  · rw [latchMark_of_changed h]
    exact changeTiming_onlyRecords (s.markedTmu n).timing (s.markedTmu n).holdover (s.enteredMark n)

theorem latchMark_tmu (n : Newest) (s : State) : (latchMark n s).tmu = s.markedTmu n :=
  (latchMark_onlyRecords n s).tmu

/-- A mark that changes the timing state is that change, with both entries as the mark leaves them (R30). -/
theorem latchMark_change {n : Newest} {s : State} (hnewest : s.ring.newest = some n)
    (h : (latchMark n s).tmu.timing ≠ s.tmu.timing) :
    latchMark n s = raise .timing .b (raise .timing .a (insertRecord n.index
        (.timing { timing := (latchMark n s).tmu.timing, latest := (latchMark n s).tmu.latest
                   previous := (latchMark n s).tmu.previous })
        (s.setTmu (latchMark n s).tmu)))
      ∧ (latchMark n s).HasRecord n.index
        (.timing { timing := (latchMark n s).tmu.timing, latest := (latchMark n s).tmu.latest
                   previous := (latchMark n s).tmu.previous })
      ∧ ∀ p, (latchMark n s).Noticed .timing p := by
  rw [latchMark_tmu] at h ⊢
  rw [latchMark_of_changed h]
  exact ⟨changeTiming_eq (s := s.enteredMark n) hnewest _ _,
    changeTiming_hasRecord (s := s.enteredMark n) hnewest _ _, changeTiming_noticed _ _ _⟩

/-! ### The wait before the mark -/

/-- What stands where the mark is judged: the anchors, the settings and the ring of the command's start, the mark's
instant, and nothing owed. -/
structure AtMark (s u : State) (late : Nat) : Prop where
  latest : u.tmu.latest = s.tmu.latest
  settings : u.settings = s.settings
  ring : u.ring = s.ring
  now : u.clock.now = late
  owed : u.owed = Owed.nothing

theorem settleOwed_atMark (s : State) : AtMark s (settleOwed s) s.clock.now :=
  have hframe := settleOwed_frame s
  ⟨settleOwed_latest s, hframe.settings, hframe.ring, congrArg Clock.now hframe.clock, rfl⟩

theorem State.Settled.waited_atMark {s : State} (h : s.Settled) (late : Nat) : AtMark s (s.waited late) late :=
  ⟨rfl, rfl, rfl, rfl, h.2.2⟩

/-- The two waits of the statement, none and a quiet one, each lead to the state in which the mark is judged. -/
theorem settled_before_mark {s u : State} {after : Nat}
    (h : (after = 0 ∧ u = settleOwed s)
      ∨ (1 ≤ after ∧ s.Settled ∧ s.QuietUntil (s.clock.now + after) ∧ u = s.waited (s.clock.now + after))) :
    settleOwed (advanceTo (s.clock.now + after) s) = u ∧ AtMark s u (s.clock.now + after) := by
  rcases h with ⟨rfl, rfl⟩ | ⟨hafter, hsettled, hquiet, rfl⟩
  · rw [Nat.add_zero, advanceTo, if_neg (Nat.lt_irrefl _)]
    exact ⟨rfl, settleOwed_atMark s⟩
  · rw [advanceTo_of_quiet hsettled (Nat.lt_add_of_pos_right hafter) hquiet]
    exact ⟨settleOwed_of_nothing hsettled.2.2, hsettled.waited_atMark _⟩

theorem exec_timeMark_of_newest {s u : State} {after : Nat} {n : Newest}
    (hu : settleOwed (advanceTo (s.clock.now + after) s) = u) (hnewest : u.ring.newest = some n) :
    exec (.timeMark after) s = .next (latchMark n u) := by
  show execTimeMark after s = _
  simp only [execTimeMark, hu, hnewest]

theorem markRegular_eq (fps : Nat) (latest : Option Anchor) (i : Index) :
    markRegular fps latest i = (match latest with
      | none => false
      | some m =>
        decide ((i - m.index).toNat + 1 = fps ∨ (i - m.index).toNat = fps ∨ (i - m.index).toNat = fps + 1)) := by
  cases latest with
  | none => rfl
  | some m =>
    rw [markRegular, Bool.or_assoc, ← Bool.decide_or, ← Bool.decide_or]
    rfl

/-- The Time Mark Unit after the mark, by what stood at the command's start. -/
theorem AtMark.markedTmu {s u : State} {late : Nat} {n : Newest} {mark : Anchor} {regular two : Bool}
    (h : AtMark s u late) (hregular : regular = markRegular s.settings.station.fps s.tmu.latest n.index)
    (htwo : two = (regular && (s.tmu.latest.map Anchor.regular).getD false))
    (hmark : mark =
      { index := n.index, phase := markPhase (late - n.accepted) s.interval, regular := regular }) :
    u.markedTmu n =
      { timing := (timingAfterMark u.tmu.timing u.tmu.holdover regular two).1
        latest := some mark
        previous := s.tmu.latest
        holdover := (timingAfterMark u.tmu.timing u.tmu.holdover regular two).2 } := by
  subst hregular htwo hmark
  rw [State.markedTmu, State.afterMark, State.twoRegular, State.markAt, State.interval, h.latest, h.settings, h.now]
  rfl

/-- Settles O34: the mark on what settling leaves, and the events of its slot write that change nothing for it when
they come first. -/
theorem timeMarksMoveTheTimingState : Obligations.TimeMarksMoveTheTimingState := by
  refine ⟨?_, fun s v b hbegun hearlier hv => ?_, fun s v hunits hrefiner hlist hv => ?_,
    fun s => ⟨settleOwed_tmu_of_none, fun m n howed hlocked hlatest hnewest hlength => ?_,
      fun n howed hholdover hnewest hcount => ?_⟩⟩
  · rintro s u after late rfl hwait
    obtain ⟨hu, hat⟩ := settled_before_mark hwait
    refine ⟨fun hnone => ?_, fun n mark regular two hnewest hregular htwo hmark => ?_⟩
    · rw [exec_timeMark_of_none (by rw [hu, hat.ring, hnone]), hu]
    · have hnewest' : u.ring.newest = some n := by rw [hat.ring, hnewest]
      have hlast : (s.tmu.latest.map Anchor.regular).getD false =
          (match s.tmu.latest with | none => false | some m => m.regular) := by cases s.tmu.latest <;> rfl
      have hboth : two = true → regular = true := fun h => (Bool.and_eq_true_iff.1 (htwo.symm.trans h)).1
      have htmu : (latchMark n u).tmu = _ := (latchMark_tmu n u).trans
        (hat.markedTmu (hregular.trans (markRegular_eq _ _ _).symm)
          (htwo.trans (congrArg (regular && ·) hlast.symm)) hmark)
      have hlatest : (latchMark n u).tmu.latest = some mark := by rw [htmu]
      have hprevious : (latchMark n u).tmu.previous = s.tmu.latest := by rw [htmu]
      have hframe := latchMark_onlyRecords n u
      refine ⟨latchMark n u, exec_timeMark_of_newest hu hnewest', hlatest, hprevious, fun h => ?_,
        fun hlocked h => ?_, fun hlocked h => ?_, fun hlocked h => ?_, fun hkept => ?_, fun hchanged => ?_,
        hframe.settings.trans hat.settings, hframe.intake, hframe.ring.trans hat.ring, hframe.units,
        hframe.owed.trans hat.owed⟩
      · rw [htmu, h, hboth h, timingAfterMark_of_two]
        exact ⟨rfl, rfl⟩
      · rw [htmu, hlocked, timingAfterMark_of_locked, if_pos h]
      · rw [htmu, hlocked, timingAfterMark_of_locked, h]
        exact ⟨rfl, rfl⟩
      · rw [htmu, h, timingAfterMark_of_not_locked hlocked]
        exact ⟨rfl, rfl⟩
      · rw [latchMark_tmu] at hkept ⊢
        exact latchMark_of_kept hkept
      · rw [← hlatest, ← hprevious]
        exact latchMark_change hnewest' hchanged
  · have hsettled : ∀ d, settleOwed (unitRow d b (finishBegun s)) = settleOwed s := fun d => by
      rw [finishBegun_of_nothingBegun hbegun, settleOwed_unitRow hbegun hearlier]
    rcases hv with hv | hv
    · cases hv
      exact exec_timeMark_now_congr (hsettled .primary)
    · cases hv
      exact exec_timeMark_now_congr (hsettled .stacked)
  · have hbegun : s.NothingBegun := ⟨.inr hrefiner, .inr hlist⟩
    rw [exec_watchExpiry hbegun, exec_holdoverExpiry hbegun] at hv
    rcases hv with hv | hv
    · cases hv
      exact exec_timeMark_now_congr (settleOwed_timingFinish hunits hrefiner hlist _)
    · cases hv
      exact exec_timeMark_now_congr (settleOwed_timingFinish hunits hrefiner hlist _)
  · exact settleOwed_of_watchDue hnewest howed (State.watchDue_of_reached hlocked hlatest hnewest hlength)
  · exact settleOwed_of_holdoverDue hnewest howed (s.holdoverDue_iff.2 ⟨hholdover, hcount⟩)

end Sys2Proof.Machine
end

section
/-! FETCH (R36, R182, R183): the request's bytes, its checks in order, and the fetch it begins. -/

namespace Sys2Proof.Machine

/-- Four bytes side by side, most significant first, are the index they carry (R190). -/
theorem index32_eq_append (b3 b2 b1 b0 : Byte) : index32 b3 b2 b1 b0 = b3 ++ b2 ++ b1 ++ b0 := by
  have h2 : b2.toNat < 2 ^ 8 := b2.isLt
  have h1 : b1.toNat < 2 ^ 8 := b1.isLt
  have h0 : b0.toNat < 2 ^ 8 := b0.isLt
  apply BitVec.eq_of_toNat_eq
  rw [BitVec.toNat_append, BitVec.toNat_append, BitVec.toNat_append, ← Nat.shiftLeft_add_eq_or_of_lt h2,
    ← Nat.shiftLeft_add_eq_or_of_lt h1, ← Nat.shiftLeft_add_eq_or_of_lt h0, Nat.shiftLeft_eq, Nat.shiftLeft_eq,
    Nat.shiftLeft_eq, index32, BitVec.toNat_ofNat]
  have h3 := b3.isLt
  omega

/-- The ring holds an index that lies fewer slots before the newest than it has written (R36). -/
theorem Ring.holds_of_newest {g : Ring} {n : Newest} (h : g.newest = some n) (i : Index) :
    g.holds i = decide ((n.index - i).toNat < g.written) := by
  rw [Ring.holds, h]
  rfl

section
variable {s : State} {p : Port}

/-- The oldest held index lies one less than the written count before the newest (R36). -/
theorem heldRange_of_newest {n : Newest} (h : s.ring.newest = some n) :
    heldRange s = some (n.index - BitVec.ofNat 32 s.ring.written + 1, n.index) := by
  rw [heldRange, Ring.oldest, State.newestIndex, h]
  rfl

/-! ### The checks in order (R182) -/

section
variable {start : Index} {count : Nat} {mask : Bands Bool}

theorem fetchBody_of_count (h : count = 0 ∨ 256 < count) : fetchBody p start count mask s = (s, .badParam) :=
  if_pos h

theorem fetchBody_of_empty (hcount : ¬ (count = 0 ∨ 256 < count)) (h : s.ring.newest = none) :
    fetchBody p start count mask s = (s, .notYetHeld none) := by
  have hnewest : s.newestIndex = none := congrArg (Option.map Newest.index) h
  exact (if_neg hcount).trans (by rw [hnewest])

/-- Once the ring has a newest slot, the start must be held and the end must not lie past that slot. -/
theorem fetchBody_of_newest (hcount : ¬ (count = 0 ∨ 256 < count)) {n : Newest} (h : s.ring.newest = some n) :
    fetchBody p start count mask s =
      if (n.index - start).toNat < s.ring.written then
        if earlier n.index (start + BitVec.ofNat 32 count - 1) then (s, .notYetHeld (heldRange s))
        else (beginFetch p { start := start, count := count, mask := mask, returned := 0, buffer := [] } s, .ok)
      else if earlier n.index start then (s, .notYetHeld (heldRange s))
      else (s, .gone (heldRange s)) := by
  have hnewest : s.newestIndex = some n.index := congrArg (Option.map Newest.index) h
  refine (if_neg hcount).trans ?_
  rw [hnewest]
  dsimp only
  rw [Ring.holds_of_newest h]
  by_cases hheld : (n.index - start).toNat < s.ring.written
  · rw [decide_eq_true hheld, if_pos hheld]
    rfl
  · rw [decide_eq_false hheld, if_neg hheld]
    rfl

end

/-! ### The request at a port that executes it -/

/-- The request's seven bytes are the start, the count and the content mask; its body runs on the state with the old
response shifted out. -/
theorem exec_fetch (hopen : s.PortsOpen) {i3 i2 i1 i0 hi lo m : Byte} {rest more : List Bool}
    (hrest : rest = bitsOfBytes [i3, i2, i1, i0, hi, lo, m] ++ more) {t : State} {r : Response}
    (hbody : fetchBody p (i3 ++ i2 ++ i1 ++ i0) (256 * hi.toNat + lo.toNat) (contentMask m)
      (openTransaction p (8 + rest.length) s) = (t, r)) :
    exec (.fetch p rest) s = .next (respond p r t) := by
  have hbytes : wholeBytes rest = [i3, i2, i1, i0, hi, lo, m] ++ wholeBytes more := by
    rw [hrest, wholeBytes_bitsOfBytes]
  show execFetch p rest s = _
  rw [execFetch, hbytes]
  dsimp only [List.cons_append]
  rw [transact_of_open hopen, requestClocks, index32_eq_append, word16, hbody]

/-- A check that fails answers and does nothing else (R182). -/
theorem exec_fetch_refused (hopen : s.PortsOpen) {i3 i2 i1 i0 hi lo m : Byte} {rest more : List Bool}
    (hrest : rest = bitsOfBytes [i3, i2, i1, i0, hi, lo, m] ++ more) {r : Response}
    (hbody : fetchBody p (i3 ++ i2 ++ i1 ++ i0) (256 * hi.toNat + lo.toNat) (contentMask m)
      (openTransaction p (8 + rest.length) s) = (openTransaction p (8 + rest.length) s, r)) :
    exec (.fetch p rest) s = .next (s.answered p (8 + rest.length) r) := by
  rw [exec_fetch hopen hrest hbody, respond_openTransaction]

/-- The response put in place beside the fetch begun (R173, R183). -/
theorem respond_beginFetch (p : Port) (clocks : Nat) (r : Response) (f : Fetch) (s : State) :
    respond p r (beginFetch p f (openTransaction p clocks s)) = beginFetch p f (s.answered p clocks r) := by
  cases p <;> rfl

end

/-- Settles O55: the body of the request's bytes, check by check, on a ring that the exchange leaves alone. -/
theorem fetchesAreCheckedAndBegun : Obligations.FetchesAreCheckedAndBegun := by
  rintro s p rest more i3 i2 i1 i0 hi lo m start count hopen hrest rfl rfl
  have hrefused := fun {r} => exec_fetch_refused (p := p) (r := r) hopen hrest
  refine ⟨fun hcount => hrefused (fetchBody_of_count hcount), fun hlow hhigh hempty =>
    hrefused (fetchBody_of_empty (by omega) hempty), ?_⟩
  rintro n oldest last hlow hhigh hnewest rfl rfl
  have hbody := fetchBody_of_newest (p := p) (s := openTransaction p (8 + rest.length) s)
    (start := i3 ++ i2 ++ i1 ++ i0) (count := 256 * hi.toNat + lo.toNat) (mask := contentMask m) (by omega) hnewest
  rw [heldRange_of_newest (s := openTransaction p (8 + rest.length) s) hnewest] at hbody
  refine ⟨fun hstart hafter => ?_, fun hstart hbefore => ?_, fun hstart hpast => ?_, fun hstart hwithin => ?_⟩
  · exact hrefused (hbody.trans ((if_neg (Nat.not_lt.2 hstart)).trans (if_pos hafter)))
  · exact hrefused (hbody.trans ((if_neg (Nat.not_lt.2 hstart)).trans (if_neg (ne_true_of_eq_false hbefore))))
  · exact hrefused (hbody.trans ((if_pos hstart).trans (if_pos hpast)))
  · rw [exec_fetch hopen hrest (hbody.trans ((if_pos hstart).trans (if_neg (ne_true_of_eq_false hwithin)))),
      respond_beginFetch]
    cases p <;> rfl

end Sys2Proof.Machine
end

section
/-! The bytes of records and of fetched slots (R37, R192 to R194): a field is the bytes at its place, and behind a run
of bytes of known length it is a field of what follows. -/

namespace Sys2Proof.Machine

/-! ### Numbers in their places (R189, R190) -/

section
variable {bs : List Byte} {start : Nat}

theorem fieldAt_byte {v : Byte} (h : (bs.drop start).take 1 = [v]) : fieldAt bs start 1 = v.toNat := by
  rw [fieldAt, h, List.foldl_cons, List.foldl_nil, Nat.mul_zero, Nat.zero_add]

theorem fieldAt_bytes8 {n : Nat} (h : (bs.drop start).take 1 = bytes8 n) : fieldAt bs start 1 = n % 256 :=
  (fieldAt_byte h).trans (BitVec.toNat_ofNat _ _)

theorem fieldAt_bytes16 {n : Nat} (h : (bs.drop start).take 2 = bytes16 n) : fieldAt bs start 2 = n % 65536 := by
  simp only [fieldAt, h, bytes16, List.foldl_cons, List.foldl_nil, BitVec.toNat_ofNat]
  omega

theorem fieldAt_bytes24 {n : Nat} (h : (bs.drop start).take 3 = bytes24 n) : fieldAt bs start 3 = n % 16777216 := by
  simp only [fieldAt, h, bytes24, List.foldl_cons, List.foldl_nil, BitVec.toNat_ofNat]
  omega

theorem fieldAt_bytes32 {n : Nat} (h : (bs.drop start).take 4 = bytes32 n) : fieldAt bs start 4 = n % 4294967296 := by
  simp only [fieldAt, h, bytes32, List.foldl_cons, List.foldl_nil, BitVec.toNat_ofNat]
  omega

/-- A number below 256 stands in its byte whole. -/
theorem fieldAt_bytes8_of_lt {n : Nat} (h : (bs.drop start).take 1 = bytes8 n) (hn : n < 256) :
    fieldAt bs start 1 = n := (fieldAt_bytes8 h).trans (Nat.mod_eq_of_lt hn)

theorem fieldAt_word16 {v : BitVec 16} (h : (bs.drop start).take 2 = bytes16 v.toNat) :
    fieldAt bs start 2 = v.toNat := (fieldAt_bytes16 h).trans (Nat.mod_eq_of_lt v.isLt)

theorem fieldAt_word24 {v : BitVec 24} (h : (bs.drop start).take 3 = bytes24 v.toNat) :
    fieldAt bs start 3 = v.toNat := (fieldAt_bytes24 h).trans (Nat.mod_eq_of_lt v.isLt)

theorem fieldAt_word32 {v : BitVec 32} (h : (bs.drop start).take 4 = bytes32 v.toNat) :
    fieldAt bs start 4 = v.toNat := (fieldAt_bytes32 h).trans (Nat.mod_eq_of_lt v.isLt)

end

/-- A field past a run of bytes is a field of what follows them. -/
theorem fieldAt_append (xs ys : List Byte) (start len : Nat) :
    fieldAt (xs ++ ys) (xs.length + start) len = fieldAt ys start len := by
  rw [fieldAt, fieldAt, List.drop_length_add_append]

/-- A byte's value by its bits. -/
theorem byteOfBits_toNat (b7 b6 b5 b4 b3 b2 b1 b0 : Bool) :
    (byteOfBits b7 b6 b5 b4 b3 b2 b1 b0).toNat =
      128 * b7.toNat + 64 * b6.toNat + 32 * b5.toNat + 16 * b4.toNat + 8 * b3.toNat + 4 * b2.toNat + 2 * b1.toNat
        + b0.toNat := by
  rw [byteOfBits, BitVec.toNat_ofNat]
  refine Nat.mod_eq_of_lt ?_
  linarith [b7.toNat_le, b6.toNat_le, b5.toNat_le, b4.toNat_le, b3.toNat_le, b2.toNat_le, b1.toNat_le, b0.toNat_le]

/-! ### The codes of the records' fields (R190) -/

theorem TimingState.code_eq (t : TimingState) :
    t.code = [TimingState.none, .locked, .holdover, .free].idxOf t := by cases t <;> rfl

theorem Phase.code_eq (phase : Phase) : phase.code = [Phase.x, .p, .s].idxOf phase := by cases phase <;> rfl

theorem CloseCause.code_eq (c : CloseCause) :
    c.code = [CloseCause.fell, .capped, .cal, .gap].idxOf c + 1 := by cases c <;> rfl

theorem band_number_lt (b : Band) : b.number < 256 := by cases b <;> decide

theorem Phase.code_lt (phase : Phase) : phase.code < 256 := by cases phase <;> decide

theorem CloseCause.code_lt (c : CloseCause) : c.code < 256 := by cases c <;> decide

theorem TimingState.code_le (t : TimingState) : t.code ≤ 3 := by cases t <;> decide

/-- The state, the regular indications and two phases of at most 10 bits fill 24 bits (R193). -/
theorem TimingPart.packed_lt {t : TimingPart} {l p : Anchor} (hl : t.latest = some l) (hp : t.previous = some p)
    (hlphase : l.phase ≤ 1023) (hpphase : p.phase ≤ 1023) : t.packed < 16777216 := by
  have hstate := t.timing.code_le
  have hlreg := Bool.toNat_le l.regular
  have hpreg := Bool.toNat_le p.regular
  rw [TimingPart.packed, hl, hp, anchorOr, anchorOr, Option.getD_some, Option.getD_some]
  omega

/-! ### The energies of a fetched slot (R194) -/

/-- How many bands below one a content mask enables. -/
def Bands.enabledBelow (m : Bands Bool) : Band → Nat
  | .b0 => 0
  | .b1 => m.b0.toNat
  | .b2 => m.b0.toNat + m.b1.toNat

theorem energyBytes_length (m : Bands Bool) (e v : Bands Energy) :
    (energyBytes m e v).length = 8 * (m.b0.toNat + m.b1.toNat + m.b2.toNat) := by
  obtain ⟨m0, m1, m2⟩ := m
  cases m0 <;> cases m1 <;> cases m2 <;> rfl

/-- An enabled band's two energies follow eight bytes for each enabled band below it. -/
theorem energyBytes_split {m : Bands Bool} {b : Band} (h : m.get b = true) (e v : Bands Energy) :
    ∃ before after, before.length = 8 * m.enabledBelow b
      ∧ energyBytes m e v = before ++ (bytes32 (e.get b).toNat ++ bytes32 (v.get b).toNat ++ after) := by
  obtain ⟨m0, m1, m2⟩ := m
  cases b with
  | b0 =>
    cases h
    exact ⟨[], _, rfl, List.append_assoc _ _ _⟩
  | b1 =>
    cases h
    refine ⟨_, _, ?_, List.append_assoc _ _ _⟩
    cases m0 <;> rfl
  | b2 =>
    cases h
    refine ⟨_, [], ?_, (congrArg (List.append _) (List.append_nil _)).symm⟩
    cases m0 <;> cases m1 <;> rfl

/-- Where the energies of an enabled band stand behind a run of bytes. -/
theorem energyBytes_fields {m : Bands Bool} {b : Band} (h : m.get b = true) (front : List Byte) (e v : Bands Energy) :
    fieldAt (front ++ energyBytes m e v) (front.length + 8 * m.enabledBelow b) 4 = (e.get b).toNat
      ∧ fieldAt (front ++ energyBytes m e v) (front.length + 8 * m.enabledBelow b + 4) 4 = (v.get b).toNat := by
  obtain ⟨before, after, hlength, hsplit⟩ := energyBytes_split h e v
  rw [hsplit, ← hlength, Nat.add_assoc, fieldAt_append, fieldAt_append]
  exact ⟨(fieldAt_append before _ 0 4).trans (fieldAt_word32 rfl),
    (fieldAt_append before _ 4 4).trans (fieldAt_word32 rfl)⟩

theorem energyBytes_zero (m : Bands Bool) : ∀ y ∈ energyBytes m (Bands.all 0) (Bands.all 0), y = 0 := by
  obtain ⟨m0, m1, m2⟩ := m
  cases m0 <;> cases m1 <;> cases m2 <;> decide

/-! ### A fetched slot (R37, R194) -/

theorem flags_of_stored (i : Index) (v : Slot) :
    (ReadResult.flags { index := i, slot := some v }).toNat =
      64 * v.damaged.toNat + 32 * v.gap.toNat + 16 * v.reading.clipZ.toNat + 8 * v.reading.clipN.toNat
        + 4 * v.reading.clipE.toNat + 2 * v.reading.cal.toNat + v.esat.toNat := by
  rw [ReadResult.flags, byteOfBits_toNat, Bool.toNat_false, Nat.mul_zero, Nat.zero_add]

/-- The bytes before the energies of a slot stored: the index, the flags and the three samples. -/
def storedFront (i : Index) (v : Slot) : List Byte :=
  bytes32 i.toNat ++ [ReadResult.flags { index := i, slot := some v }] ++ bytes24 v.reading.z.toNat
    ++ bytes24 v.reading.n.toNat ++ bytes24 v.reading.e.toNat

theorem bytes_of_stored (m : Bands Bool) (i : Index) (v : Slot) :
    ReadResult.bytes m { index := i, slot := some v } = storedFront i v ++ energyBytes m v.energy v.vertical := rfl

theorem bytes_of_overwritten (m : Bands Bool) (i : Index) :
    ReadResult.bytes m { index := i, slot := none } =
      bytes32 i.toNat ++ [128] ++ List.replicate 9 0 ++ energyBytes m (Bands.all 0) (Bands.all 0) := rfl

/-- Behind its flags an overwritten result carries nothing (R37). -/
theorem drop_of_overwritten (m : Bands Bool) (i : Index) :
    (ReadResult.bytes m { index := i, slot := none }).drop 5 =
      List.replicate 9 0 ++ energyBytes m (Bands.all 0) (Bands.all 0) := rfl

theorem ReadResult.bytes_length (m : Bands Bool) (x : ReadResult) :
    (x.bytes m).length = 14 + 8 * (m.b0.toNat + m.b1.toNat + m.b2.toNat) := by
  obtain ⟨i, slot⟩ := x
  cases slot with
  | none => rw [bytes_of_overwritten, List.length_append, energyBytes_length]; rfl
  | some v => rw [bytes_of_stored, List.length_append, energyBytes_length]; rfl

/-! ### The kinds of record (R192, R193) -/

theorem OnsetPart.flags_toNat (o : OnsetPart) :
    o.flags.toNat = 128 * o.coarse.toNat + 64 * o.expired.toNat + 32 * o.shed.toNat + 8 * o.truncated.toNat
      + 4 * o.gap.toNat + 2 * o.damaged.toNat + o.clipped.toNat := by
  rw [OnsetPart.flags, byteOfBits_toNat, Bool.toNat_false, Nat.mul_zero, Nat.add_zero]

/-- The byte that says which measurements of an onset are present (R192). -/
theorem presence_toNat (fraction peaks : Bool) :
    (byteOfBits false false false false false false peaks fraction).toNat = fraction.toNat + 2 * peaks.toNat := by
  rw [byteOfBits_toNat, Bool.toNat_false]
  omega

/-- Settles O24: each field is read off the bytes at its place, a number of the field's own width whole and any other
cut to it. -/
theorem recordsAndSlotsCarryTheirFields : Obligations.RecordsAndSlotsCarryTheirFields := by
  refine ⟨?_, ?_⟩
  · rintro ⟨serial, key, detail, released, marks⟩ bs rfl
    refine ⟨fieldAt_word16 rfl, fieldAt_word32 rfl, fun o ho => ?_, fun c hc => ?_, fun x hx => ?_,
      fun x l p hx hl hp hlphase hpphase => ?_⟩
    · subst ho
      rw [← o.flags_toNat, ← presence_toNat, ← o.phase.code_eq, ← o.timing.code_eq]
      simp only [Record.bytes, OnsetPart.bytes, List.append_assoc]
      exact ⟨rfl, fieldAt_bytes8_of_lt rfl (by decide), fieldAt_bytes8_of_lt rfl (band_number_lt _), fieldAt_byte rfl,
        fieldAt_bytes8 rfl, fieldAt_bytes8_of_lt rfl o.phase.code_lt, fieldAt_bytes8 rfl, fieldAt_bytes8 rfl,
        fieldAt_byte rfl, fieldAt_byte rfl,
        fieldAt_bytes8_of_lt rfl (Nat.lt_of_le_of_lt o.timing.code_le (by decide)), fieldAt_word16 rfl,
        fieldAt_bytes8 rfl, fieldAt_bytes32 rfl, fieldAt_bytes32 rfl, rfl⟩
    · subst hc
      rw [← c.cause.code_eq]
      simp only [Record.bytes, ClosePart.bytes, List.append_assoc]
      exact ⟨rfl, fieldAt_bytes8_of_lt rfl (by decide), fieldAt_bytes8_of_lt rfl (band_number_lt _), fieldAt_byte rfl,
        fieldAt_bytes16 rfl, fieldAt_bytes8 rfl, fieldAt_bytes8_of_lt rfl c.cause.code_lt, rfl⟩
    · subst hx
      refine ⟨rfl, fieldAt_bytes8_of_lt rfl (by decide), ?_, rfl⟩
      cases x <;> rfl
    · subst hx
      have hpacked := TimingPart.packed_lt hl hp hlphase hpphase
      have hlatest : anchorOr x.latest = l := by rw [hl]; rfl
      have hprevious : anchorOr x.previous = p := by rw [hp]; rfl
      rw [← x.timing.code_eq]
      simp only [Record.bytes, TimingPart.bytes, List.append_assoc, hlatest, hprevious]
      refine ⟨rfl, fieldAt_bytes8_of_lt rfl (by decide), ?_, fieldAt_bytes24 rfl, fieldAt_bytes24 rfl⟩
      rw [← hlatest, ← hprevious]
      exact (fieldAt_bytes24 rfl).trans (Nat.mod_eq_of_lt hpacked)
  · rintro m ⟨i, slot⟩ bs rfl
    refine ⟨ReadResult.bytes_length m _, fieldAt_word32 rfl, fun hx => ?_, fun v hx => ?_⟩
    · subst hx
      refine ⟨fieldAt_bytes8_of_lt rfl (by decide), fun y hy => ?_⟩
      rw [drop_of_overwritten, List.mem_append] at hy
      exact hy.elim List.eq_of_mem_replicate (energyBytes_zero m y)
    · subst hx
      refine ⟨(fieldAt_byte rfl).trans (flags_of_stored i v), fieldAt_word24 rfl, fieldAt_word24 rfl,
        fieldAt_word24 rfl, ?_⟩
      rintro b start hb rfl
      rw [bytes_of_stored]
      have hfields := energyBytes_fields hb (storedFront i v) v.energy v.vertical
      cases b <;> exact hfields

end Sys2Proof.Machine
end

section
/-! The read arbiter (R38 to R42, R94, R184): who wants a read, who is served, and what READ_GRANT reads and counts. -/

namespace Sys2Proof.Machine

/-! ### The lanes (R39, R41) -/

section
variable {rf : Refiner} {l : LaneId}

/-- A lane wants a read while it scans and its window is short of its length (R39, R94). -/
theorem Refiner.wanting_eq_some_iff {x : LaneId × Index} :
    rf.wanting l = some x ↔
      ∃ r w, rf.lanes.get l = .scanning r w ∧ w.length < r.length ∧ x = (l, r.deadline) := by
  unfold Refiner.wanting
  cases rf.lanes.get l with
  | scanning r w =>
    by_cases hw : w.length < r.length
    · simp [Lane.wants, hw, eq_comm]
    · simp [Lane.wants, hw]
  | free | waiting | resolving => simp

theorem Refiner.wanting_of_scanning {r : Request} {w : List WindowSlot} (hl : rf.lanes.get l = .scanning r w)
    (hw : w.length < r.length) : rf.wanting l = some (l, r.deadline) :=
  Refiner.wanting_eq_some_iff.2 ⟨r, w, hl, hw, rfl⟩

theorem Refiner.wanting_iff :
    (∃ d, rf.wanting l = some (l, d)) ↔ ∃ r w, rf.lanes.get l = .scanning r w ∧ w.length < r.length := by
  constructor
  · rintro ⟨d, hd⟩
    obtain ⟨r, w, hl, hw, -⟩ := Refiner.wanting_eq_some_iff.1 hd
    exact ⟨r, w, hl, hw⟩
  · rintro ⟨r, w, hl, hw⟩
    exact ⟨_, Refiner.wanting_of_scanning hl hw⟩

theorem betterLane_none_left (y : Option (LaneId × Index)) : betterLane none y = y := by cases y <;> rfl

/-- The better of two lanes is one of the two. -/
theorem betterLane_mem {a b : Option (LaneId × Index)} {x : LaneId × Index} (h : betterLane a b = some x) :
    a = some x ∨ b = some x := by
  unfold betterLane at h
  split at h
  · exact .inr h
  · exact .inl h
  · split at h
    · exact .inr h
    · exact .inl h

/-- A lane of an earlier deadline is the better one (R41). -/
theorem betterLane_of_earlier {a : Option (LaneId × Index)} {y : LaneId × Index}
    (h : ∀ x, a = some x → earlier y.2 x.2 = true) : betterLane a (some y) = some y := by
  cases a with
  | none => rfl
  | some x => exact if_pos (h x rfl)

/-- A lane before which no other's deadline comes stays the better one (R41). -/
theorem betterLane_of_not_earlier {x : LaneId × Index} {b : Option (LaneId × Index)}
    (h : ∀ y, b = some y → earlier y.2 x.2 = false) : betterLane (some x) b = some x := by
  cases b with
  | none => rfl
  | some y => exact if_neg (ne_true_of_eq_false (h y rfl))

/-- The lanes are compared one after another in lane order. -/
theorem Refiner.firstWanting_eq (rf : Refiner) :
    rf.firstWanting =
      ([LaneId.l0, .l1, .l2, .l3].foldl (fun best k => betterLane best (rf.wanting k)) none).map Prod.fst := by
  rw [Refiner.firstWanting, List.foldl_cons, betterLane_none_left]
  rfl

/-- What comes of comparing lanes one after another is one of them, or what stood before them. -/
theorem foldl_betterLane_mem {ks : List LaneId} {best : Option (LaneId × Index)} {x : LaneId × Index}
    (h : ks.foldl (fun best k => betterLane best (rf.wanting k)) best = some x) :
    best = some x ∨ ∃ k ∈ ks, rf.wanting k = some x := by
  induction ks generalizing best with
  | nil => exact .inl h
  | cons k ks ih =>
    rcases ih h with h | ⟨j, hj, hx⟩
    · exact (betterLane_mem h).imp id fun hk => ⟨k, List.mem_cons_self, hk⟩
    · exact .inr ⟨j, List.mem_cons_of_mem _ hj, hx⟩

theorem foldl_betterLane_keeps {ks : List LaneId} {x : LaneId × Index}
    (h : ∀ k ∈ ks, ∀ y, rf.wanting k = some y → earlier y.2 x.2 = false) :
    ks.foldl (fun best k => betterLane best (rf.wanting k)) (some x) = some x := by
  induction ks with
  | nil => rfl
  | cons k ks ih =>
    obtain ⟨hk, hks⟩ := List.forall_mem_cons.1 h
    rw [List.foldl_cons, betterLane_of_not_earlier hk, ih hks]

/-- An index is not earlier than one that is earlier than it, nor than itself (R1). -/
theorem not_earlier_of_earlier_or_eq {a b : Index} (h : earlier a b = true ∨ a = b) : earlier b a = false := by
  rcases h with h | rfl
  · simp only [earlier, Bool.and_eq_true, Bool.and_eq_false_iff, decide_eq_true_eq, decide_eq_false_iff_not] at *
    bv_omega
  · simp [earlier]

/-- The lane of the earliest deadline is served, the lowest number on a tie (R41). -/
theorem Refiner.firstWanting_of_best {d : Index} (hl : rf.wanting l = some (l, d))
    (hbest : ∀ k e, k ≠ l → rf.wanting k = some (k, e) →
      earlier d e = true ∨ (d = e ∧ [LaneId.l0, .l1, .l2, .l3].idxOf l < [LaneId.l0, .l1, .l2, .l3].idxOf k)) :
    rf.firstWanting = some l := by
  have hwanting : ∀ {k x}, rf.wanting k = some x → x.1 = k := by
    intro k x h
    obtain ⟨-, -, -, -, rfl⟩ := Refiner.wanting_eq_some_iff.1 h
    rfl
  obtain ⟨before, after, hlanes, hearlier⟩ := lanes_split l
  have hnodup : (before ++ l :: after).Nodup := by
    rw [← hlanes]
    decide
  have hafter : ∀ k ∈ after, k ≠ l := fun k hk he =>
    (List.nodup_cons.1 (List.nodup_middle.1 hnodup)).1 (List.mem_append_right _ (he ▸ hk))
  rw [Refiner.firstWanting_eq, hlanes, List.foldl_append, List.foldl_cons, hl, betterLane_of_earlier,
    foldl_betterLane_keeps]
  · rfl
  · rintro k hk ⟨j, e⟩ hy
    obtain rfl : j = k := hwanting hy
    exact not_earlier_of_earlier_or_eq ((hbest j e (hafter j hk) hy).imp id And.left)
  · rintro ⟨j, e⟩ hx
    obtain ⟨k, hk, hy⟩ := (foldl_betterLane_mem hx).resolve_left (by simp)
    obtain rfl : j = k := hwanting hy
    have hlower := hearlier j hk
    refine (hbest j e ?_ hy).resolve_right fun h => Nat.lt_asymm hlower h.2
    rintro rfl
    exact Nat.lt_irrefl _ hlower

theorem Refiner.firstWanting_of_none (h : ∀ l d, rf.wanting l ≠ some (l, d)) : rf.firstWanting = none := by
  have hnone : ∀ l, rf.wanting l = none := by
    intro l
    cases hl : rf.wanting l with
    | none => rfl
    | some x =>
      obtain ⟨r, w, -, -, rfl⟩ := Refiner.wanting_eq_some_iff.1 hl
      exact absurd hl (h l _)
  rw [Refiner.firstWanting, hnone, hnone, hnone, hnone]
  rfl

end

/-! ### The fetch engines (R42, R184) -/

section
variable {s : State} {p : Port}

theorem FetchEngine.wants_iff {e : FetchEngine} :
    e.wants = true ↔ ∃ f, e = .filling f ∧ f.buffer.length < f.count := by
  cases e <;> simp [FetchEngine.wants]

theorem State.firstEngine_of_none (h : ∀ p, (s.ports.get p).engine.wants = false) : s.firstEngine = none := by
  have ha : s.ports.a.engine.wants = false := h .a
  have hb : s.ports.b.engine.wants = false := h .b
  rw [State.firstEngine, ha, hb]

theorem State.firstEngine_of_only (hp : (s.ports.get p).engine.wants = true)
    (hother : (s.ports.get p.other).engine.wants = false) : s.firstEngine = some p := by
  cases p with
  | a =>
    have ha : s.ports.a.engine.wants = true := hp
    have hb : s.ports.b.engine.wants = false := hother
    rw [State.firstEngine, ha, hb]
  | b =>
    have ha : s.ports.a.engine.wants = false := hother
    have hb : s.ports.b.engine.wants = true := hp
    rw [State.firstEngine, ha, hb]

theorem State.firstEngine_of_both (h : ∀ q, (s.ports.get q).engine.wants = true)
    (hp : s.ring.lastServed = some p.other
      ∨ (s.ring.lastServed = none ∧ s.clock.fillOrder.head? = some p)) : s.firstEngine = some p := by
  have ha : s.ports.a.engine.wants = true := h .a
  have hb : s.ports.b.engine.wants = true := h .b
  rw [State.firstEngine, ha, hb]
  rcases hp with hserved | ⟨hserved, hfirst⟩
  · rw [hserved]
    cases p <;> rfl
  · rw [hserved]
    dsimp only
    rw [List.headD_eq_head?_getD, hfirst, Option.getD_some]

/-- An engine that wants is served where the other does not, or was served last, or where none was served yet and its
own fetch began first (R42). -/
theorem State.firstEngine_of_wants (hp : (s.ports.get p).engine.wants = true)
    (hother : (s.ports.get p.other).engine.wants = true → s.ring.lastServed = some p.other
      ∨ (s.ring.lastServed = none ∧ s.clock.fillOrder.head? = some p)) : s.firstEngine = some p := by
  cases hwants : (s.ports.get p.other).engine.wants with
  | false => exact State.firstEngine_of_only hp hwants
  | true =>
    refine State.firstEngine_of_both (fun q => ?_) (hother hwants)
    cases p <;> cases q <;> assumption

/-! ### The division of the budget (R40) -/

theorem State.grantee_of_nobody
    (h : s.ring.newest = none ∨ Config.intervalBudget ≤ s.ring.laneReads + s.ring.fetchReads
      ∨ (s.refiner.firstWanting = none ∧ s.firstEngine = none)) : s.grantee = none := by
  unfold State.grantee
  split
  · rename_i heligible
    obtain ⟨hnewest, hbudget⟩ := heligible
    rcases h with h | h | ⟨hlane, hengine⟩
    · rw [h] at hnewest
      cases hnewest
    · exact absurd hbudget (Nat.not_lt.2 h)
    · rw [hlane, hengine]
  · rfl

section
variable (hnewest : s.ring.newest.isSome = true)
  (hbudget : s.ring.laneReads + s.ring.fetchReads < Config.intervalBudget)
include hnewest hbudget

theorem State.grantee_of_lane {l : LaneId} (hl : s.refiner.firstWanting = some l)
    (h : s.ring.laneReads < Config.laneShare ∨ s.firstEngine = none) : s.grantee = some (.lane l) := by
  rw [State.grantee, if_pos ⟨hnewest, hbudget⟩, hl]
  cases hengine : s.firstEngine with
  | none => rfl
  | some p => exact if_pos (h.resolve_right (by simp [hengine]))

theorem State.grantee_of_engine (hp : s.firstEngine = some p)
    (h : s.refiner.firstWanting = none
      ∨ (Config.laneShare ≤ s.ring.laneReads ∧ s.ring.fetchReads < Config.fetchShare)) :
    s.grantee = some (.engine p) := by
  rw [State.grantee, if_pos ⟨hnewest, hbudget⟩, hp]
  cases hl : s.refiner.firstWanting with
  | none => rfl
  | some l =>
    obtain ⟨hlanes, hfetches⟩ := h.resolve_left (by simp [hl])
    exact (if_neg (Nat.not_lt.2 hlanes)).trans (if_pos hfetches)

end

/-! ### The command at its instant (R38) -/

theorem exec_readGrant (s : State) : exec .readGrant s = execReadGrant s := rfl

/-- What waits to be taken is taken before the command, so it does the same once that is settled. -/
theorem exec_readGrant_settle (s : State) : exec .readGrant (settle s) = exec .readGrant s := by
  rw [exec_readGrant, exec_readGrant]
  unfold execReadGrant
  rw [settle_settle]

theorem exec_readGrant_of_nobody (hs : s.Settled) (h : s.grantee = none) : exec .readGrant s = .next s := by
  rw [exec_readGrant]
  unfold execReadGrant
  rw [settle_of_settled hs]
  dsimp only
  rw [h]

/-- The grant is made at the first instant the spacing allows, once time has passed quietly up to it. -/
theorem exec_readGrant_of_somebody {late : Nat} {g : Grantee} (hs : s.Settled)
    (hlate : late = max s.clock.now s.clock.grantFrom) (hsample : s.clock.now ≤ s.intake.nextSample)
    (hq : s.QuietUntil late) (h : s.grantee = some g) : exec .readGrant s = .next (grantRead (s.waited late)) := by
  rw [exec_readGrant]
  unfold execReadGrant
  rw [settle_of_settled hs]
  dsimp only
  rw [h]
  dsimp only
  rw [← hlate, State.waited_of_quiet hs (hlate ▸ Nat.le_max_left _ _) hsample hq]

/-! ### The read itself (R94, R184) -/

/-- The state after the grant of a read: the next comes at least 32 periods later (R38). -/
def State.spaced (s : State) (t : Nat) : State := { s with clock := { s.clock with grantFrom := t + 32 } }

theorem grantRead_of_lane {l : LaneId} (h : s.grantee = some (.lane l)) :
    grantRead s = (grantLane l s).spaced s.clock.now := by
  rw [grantRead, h]
  rfl

theorem grantRead_of_engine (h : s.grantee = some (.engine p)) :
    grantRead s = (grantEngine p s).spaced s.clock.now := by
  rw [grantRead, h]
  rfl

theorem windowSlot_of_some {b : Band} {x : ReadResult} {v : Slot} (h : x.slot = some v) :
    windowSlot b x =
      { energy := v.energy.get b, vertical := v.vertical.get b, gap := v.gap, damaged := v.damaged
        clipped := v.reading.clipZ || v.reading.clipN || v.reading.clipE || v.esat } := by
  rw [windowSlot, h]

theorem windowSlot_of_none {b : Band} {x : ReadResult} (h : x.slot = none) :
    windowSlot b x = { energy := 0, vertical := 0, gap := false, damaged := false, clipped := false } := by
  rw [windowSlot, h]

/-- A scanning lane stores the slot read, and resolves once its window is whole (R94, R95). -/
theorem grantLane_of_scanning {l : LaneId} {r : Request} {w : List WindowSlot}
    (hl : s.refiner.lanes.get l = .scanning r w) (hw : w.length < r.length) :
    grantLane l s =
      { s with
        ring := { s.ring with laneReads := s.ring.laneReads + 1 }
        refiner := { s.refiner with
          lanes := s.refiner.lanes.set l
            (if w.length + 1 = r.length then
              .resolving r (w ++ [windowSlot r.band (s.ring.read (addSlots r.ws w.length))]) 0
            else .scanning r (w ++ [windowSlot r.band (s.ring.read (addSlots r.ws w.length))])) } } := by
  have hwhole : r.length ≤ w.length + 1 ↔ w.length + 1 = r.length := by omega
  rw [grantLane, hl, Lane.afterRead]
  simp only [List.length_append, List.length_singleton, hwhole]

theorem grantEngine_of_more {f : Fetch} (hf : (s.ports.get p).engine = .filling f)
    (hmore : f.buffer.length + 1 < f.count) :
    grantEngine p s =
      { s with ring := { s.ring with fetchReads := s.ring.fetchReads + 1, lastServed := some p } }.setPort p
        { s.ports.get p with engine := .filling (f.afterRead s.ring) } := by
  have hlength : (f.afterRead s.ring).buffer.length = f.buffer.length + 1 := List.length_append
  rw [grantEngine, hf]
  dsimp only
  rw [hlength, if_neg (Nat.not_le.2 hmore)]

theorem grantEngine_of_last {f : Fetch} (hf : (s.ports.get p).engine = .filling f)
    (hlast : f.buffer.length + 1 = f.count) :
    grantEngine p s =
      { s with
        ring := { s.ring with fetchReads := s.ring.fetchReads + 1, lastServed := some p }
        clock := { s.clock with fillOrder := s.clock.fillOrder.erase p } }.setPort p
        { s.ports.get p with
          engine := .ready (f.afterRead s.ring), notices := noticeAdd .fetch (s.ports.get p).notices } := by
  have hlength : (f.afterRead s.ring).buffer.length = f.buffer.length + 1 := List.length_append
  rw [grantEngine, hf]
  dsimp only
  rw [hlength, if_pos (Nat.le_of_eq hlast.symm)]
  cases p <;> rfl

end

/-- Settles O45: the grantee by the arbiter's rules, and its read at the instant the spacing allows. -/
theorem readGrantsFollowTheArbiter : Obligations.ReadGrantsFollowTheArbiter := by
  refine ⟨exec_readGrant_settle, ?_⟩
  rintro s u late laneWants engineWants hs hlate hsample hq rfl hlanes hengines
  have hlane : ∀ l, laneWants l ↔ ∃ d, s.refiner.wanting l = some (l, d) := fun l =>
    (hlanes l).trans Refiner.wanting_iff.symm
  have hengine : ∀ p, engineWants p ↔ (s.ports.get p).engine.wants = true := fun p =>
    (hengines p).trans FetchEngine.wants_iff.symm
  have hnolane : (∀ l, ¬ laneWants l) → s.refiner.firstWanting = none := fun h =>
    Refiner.firstWanting_of_none fun l d hl => h l ((hlane l).2 ⟨d, hl⟩)
  have hnoengine : (∀ p, ¬ engineWants p) → s.firstEngine = none := fun h =>
    State.firstEngine_of_none fun p => eq_false_of_ne_true (mt (hengine p).2 (h p))
  have hexec : ∀ {g t}, s.grantee = some g → grantRead (s.waited late) = t → exec .readGrant s = .next t :=
    fun hg ht => (exec_readGrant_of_somebody hs hlate hsample hq hg).trans (congrArg _ ht)
  refine ⟨fun h => exec_readGrant_of_nobody hs (State.grantee_of_nobody ?_),
    fun l r w hnewest hbudget hl hw hshare hbest => ?_, ?_⟩
  · rcases h with h | h | ⟨hl, he⟩ | ⟨-, -, hl, he⟩
    · exact .inl h
    · exact .inr (.inl h)
    · exact .inr (.inr ⟨hnolane hl, hnoengine he⟩)
    · exact .inr (.inl (Nat.add_le_add hl he))
  · have hfirst : s.refiner.firstWanting = some l := by
      refine Refiner.firstWanting_of_best (Refiner.wanting_of_scanning hl hw) fun k e hk hwants => ?_
      obtain ⟨q, v, hq, -, he⟩ := Refiner.wanting_eq_some_iff.1 hwants
      cases he
      exact hbest k q v hk ((hlane k).2 ⟨_, hwants⟩) hq
    have hg : s.grantee = some (.lane l) := State.grantee_of_lane hnewest hbudget hfirst (hshare.imp id hnoengine)
    refine ⟨windowSlot r.band (s.ring.read (r.ws + BitVec.ofNat 32 w.length)), hexec hg ?_,
      fun v => windowSlot_of_some, windowSlot_of_none⟩
    rw [grantRead_of_lane (s := s.waited late) hg, grantLane_of_scanning (s := s.waited late) hl hw]
    rfl
  · rintro p f f' hnewest hbudget hf hcount hshare hother rfl
    have hwants : (s.ports.get p).engine.wants = true := FetchEngine.wants_iff.2 ⟨f, hf, hcount⟩
    have hfirst : s.firstEngine = some p :=
      State.firstEngine_of_wants hwants fun h => hother ((hengine _).2 h)
    have hg : s.grantee = some (.engine p) := State.grantee_of_engine hnewest hbudget hfirst (hshare.imp hnolane id)
    refine ⟨fun hmore => hexec hg ?_, fun hlast => hexec hg ?_⟩
    · rw [grantRead_of_engine (s := s.waited late) hg, grantEngine_of_more (s := s.waited late) hf hmore]
      rfl
    · rw [grantRead_of_engine (s := s.waited late) hg, grantEngine_of_last (s := s.waited late) hf hlast]
      rfl

end Sys2Proof.Machine
end

section
/-! A step as a chain of elementary effects: what the part can do to its state at one stroke, and every command and
every step as such strokes one after another. A condition that each of them keeps is kept by every step. -/

namespace Sys2Proof.Machine

/-! ### The elementary effects -/

/-- The bodies of the port requests before which nothing owed to a slot write is settled (R175). -/
inductive RequestBody : (State → State × Response) → Prop
  | answer (r : State → Response) : RequestBody fun t => (t, r t)
  | identify (p : Port) : RequestBody (identifyBody p)
  | attach (p : Port) (fromNow : Bool) : RequestBody (attachBody p fromNow)
  | detach (p : Port) : RequestBody (detachBody p)
  | take (p : Port) : RequestBody (takeBody p)
  | confirm (p : Port) (v : Serial) : RequestBody (confirmBody p v)
  | rewind (p : Port) : RequestBody (rewindBody p)
  | fetch (p : Port) (start : Index) (count : Nat) (mask : Bands Bool) : RequestBody (fetchBody p start count mask)
  | readFetch (p : Port) : RequestBody (readFetchBody p)
  | getProfile (b : Option Band) : RequestBody (getProfileBody b)
  | setPort (p : Port) (threshold mask : Byte) : RequestBody (setPortBody p threshold mask)
  | portReset (p : Port) : RequestBody (portResetBody p)

/-- One elementary effect on the state. Each row of the table, the idle step and the passing of time are chains of
these. -/
inductive Effect (s : State) : State → Prop
  /-- Frame Intake moves on; the next index moves with a slot write only (R13). -/
  | intake (f : FrameIntake) (h : f.nextIndex = s.intake.nextIndex) : Effect s (s.setIntake f)
  | time (now : Nat) (h : s.clock.now ≤ now) : Effect s (s.setNow now)
  /-- A slot is written once nothing is owed to an earlier one and overdue resolutions are complete (R35, R95). -/
  | write (k : SlotKind) (r : Reading) (h : s.owed = Owed.nothing) : Effect s (writeCore k r (completeOverdue s))
  | unit (b : Band) (h : s.owed.units.get b = true) : Effect s (unitFinish b s)
  /-- The three steps of the refiner's handling (R96). -/
  | expiry (h : s.owed.refiner = .expiry) :
    Effect s ((expiryStep s.newestOr s).setOwed { s.owed with refiner := .scanStart })
  | scanStart (h : s.owed.refiner = .scanStart) :
    Effect s ((scanStartStep s.newestOr s).setOwed { s.owed with refiner := .launch })
  | launch (h : s.owed.refiner = .launch) :
    Effect s ((launchExamination s).setOwed { s.owed with refiner := .done })
  | examination : Effect s (launchExamination s)
  | completion (l : LaneId) : Effect s (completeLane l s)
  /-- The two halves of the list's handling (R125). -/
  | retirement (h : s.owed.list = .retire) :
    Effect s ((retireRecords s.newestOr (takeUp s.newestOr s)).setOwed { s.owed with list := .release })
  | release (h : s.owed.list = .release) :
    Effect s ((releaseRecords s.newestOr s).setOwed { s.owed with list := .done })
  | timing : Effect s (timingFinish s)
  | mark (n : Newest) (hn : s.ring.newest = some n) (h : s.owed = Owed.nothing) : Effect s (latchMark n s)
  | intakeRecord (x : IntakeType) : Effect s (intakeRecord x s)
  /-- With every handling taken, the slot write is over. -/
  | settled (h : s.owed = { Owed.nothing with gapRun := s.owed.gapRun }) : Effect s (s.setOwed Owed.nothing)
  | grant : Effect s (grantRead s)
  /-- The exchange of a transaction: response, lock-out and pins (R173, R175, R188). -/
  | exchange (p : Port) (response : Response) (lockOut selected : Bool) (dout : List Bool) :
    Effect s (s.setPort p
      { s.ports.get p with response := response, lockOut := lockOut, selected := selected, dout := dout })
  | request (body : State → State × Response) (h : RequestBody body) : Effect s (body s).1
  | setProfile (p : Port) (b : Option Band) (written : Profile) (h : s.owed = Owed.nothing) :
    Effect s (setProfileBody p b written s).1
  | setStation (p : Port) (written : Station) (h : s.owed = Owed.nothing)
    (hcore : s.settings.core = .stopped ∨ onlyDividerDiffers (clampStation written) s.settings.station) :
    Effect s (s.acceptedStation p (clampStation written))
  | start (h : s.owed = Owed.nothing) (hcore : s.settings.core = .stopped) : Effect s (startCore s)
  | stop (h : s.owed = Owed.nothing) (hcore : s.settings.core = .running) : Effect s (stopCore s)
  /-- Power and RESET leave the reset state but for the line, the pins and the queue of commands (R188). -/
  | power (level held : Bool) (q : Ports PortInterface) (h : ∀ p, (q.get p).engine = .idle) :
    Effect s { State.reset with
      intake := { FrameIntake.reset with line := level }, ports := q, resetHeld := held, pending := s.pending }
  | dequeue (rest : List Instr) : Effect s { s with pending := rest }

/-- Effects one after another. -/
abbrev Effects : State → State → Prop := Relation.ReflTransGen Effect

/-- What each effect keeps, effects one after another keep. -/
theorem Effects.keeps {P : State → Prop} (h : ∀ {s t}, Effect s t → P s → P t) {s t : State} (hst : Effects s t)
    (hs : P s) : P t := by
  induction hst with
  | refl => exact hs
  | tail _ he ih => exact h he ih

/-! ### The handlings of a slot write -/

theorem setIntake_effects (f : FrameIntake) {s : State} (h : f.nextIndex = s.intake.nextIndex) :
    Effects s (s.setIntake f) := .single (.intake f h)

theorem unitFinish_effects (b : Band) (s : State) : Effects s (unitFinish b s) := by
  cases h : s.owed.units.get b with
  | false => rw [unitFinish_of_none h]
  | true => exact .single (.unit b h)

theorem unitRow_effects (d : UnitDue) (b : Band) (s : State) : Effects s (unitRow d b s) := by
  unfold unitRow
  split
  · exact unitFinish_effects b s
  · exact .refl

theorem refinerExpiry_effects (s : State) : Effects s (refinerExpiry s) := by
  unfold refinerExpiry
  split
  · rename_i h
    exact .single (.expiry h)
  all_goals exact .refl

theorem refinerScanStart_effects (s : State) : Effects s (refinerScanStart s) := by
  unfold refinerScanStart
  dsimp only
  split
  · rename_i h
    exact (refinerExpiry_effects s).tail (.scanStart h)
  all_goals exact refinerExpiry_effects s

theorem refinerFinish_effects (s : State) : Effects s (refinerFinish s) := by
  unfold refinerFinish
  dsimp only
  split
  · rename_i h
    exact (refinerScanStart_effects s).tail (.launch h)
  all_goals exact refinerScanStart_effects s

theorem listRetire_effects (s : State) : Effects s (listRetire s) := by
  unfold listRetire
  split
  · rename_i h
    exact .single (.retirement h)
  all_goals exact .refl

theorem listFinish_effects (s : State) : Effects s (listFinish s) := by
  unfold listFinish
  dsimp only
  split
  · rename_i h
    exact (listRetire_effects s).tail (.release h)
  all_goals exact listRetire_effects s

theorem finishRefiner_effects (s : State) : Effects s (finishRefiner s) := by
  unfold finishRefiner
  split
  · exact refinerFinish_effects s
  · exact refinerFinish_effects s
  all_goals exact .refl

theorem finishList_effects (s : State) : Effects s (finishList s) := by
  unfold finishList
  split
  · exact listFinish_effects s
  all_goals exact .refl

theorem finishBegun_effects (s : State) : Effects s (finishBegun s) :=
  (finishRefiner_effects s).trans (finishList_effects _)

/-! ### What is settled, and that it leaves nothing owed -/

theorem refinerExpiry_owed (s : State) :
    (refinerExpiry s).owed = { s.owed with refiner := (refinerExpiry s).owed.refiner } := by
  unfold refinerExpiry
  split <;> rfl

theorem refinerScanStart_owed (s : State) :
    (refinerScanStart s).owed = { s.owed with refiner := (refinerScanStart s).owed.refiner } := by
  unfold refinerScanStart
  dsimp only
  split
  · rw [State.setOwed_owed, refinerExpiry_owed]
  all_goals exact refinerExpiry_owed s

/-- The refiner's handling settles what the refiner owes and nothing else. -/
theorem refinerFinish_owed (s : State) : (refinerFinish s).owed = { s.owed with refiner := .done } := by
  rw [← refinerFinish_refiner s]
  unfold refinerFinish
  dsimp only
  split
  · rw [State.setOwed_owed, refinerScanStart_owed]
  all_goals exact refinerScanStart_owed s

theorem listRetire_owed (s : State) :
    (listRetire s).owed = { s.owed with list := (listRetire s).owed.list } := by
  unfold listRetire
  split <;> rfl

/-- The list's handling settles what the list owes and nothing else. -/
theorem listFinish_owed (s : State) : (listFinish s).owed = { s.owed with list := .done } := by
  rw [← listFinish_list s]
  unfold listFinish
  dsimp only
  split
  · rw [State.setOwed_owed, listRetire_owed]
  all_goals exact listRetire_owed s

/-- The three units settled owe nothing. -/
theorem Owed.unitDone_all (o : Owed) :
    ((o.unitDone .b0).unitDone .b1).unitDone .b2 = { o with units := Bands.all false } := rfl

theorem settleOwed_effects (s : State) : Effects s (settleOwed s) := by
  have hchain := ((((((finishBegun_effects s).trans (unitFinish_effects .b0 _)).trans (unitFinish_effects .b1 _)).trans
    (unitFinish_effects .b2 _)).trans (refinerFinish_effects _)).trans (listFinish_effects _)).tail .timing
  refine hchain.tail (.settled ?_)
  rw [timingFinish_owed, listFinish_owed, refinerFinish_owed, unitFinish_owed, unitFinish_owed, unitFinish_owed,
    Owed.unitDone_all]
  rfl

/-! ### The slot write -/

theorem unitPlain_effects (b : Band) (s : State) : Effects s (unitPlain b s) := by
  unfold unitPlain
  split
  · exact .refl
  · exact unitFinish_effects b s

theorem takeRefiner_effects (s : State) : Effects s (takeRefiner s) := by
  unfold takeRefiner
  split
  · exact refinerFinish_effects s
  · exact .refl

theorem takeList_effects (s : State) : Effects s (takeList s) := by
  unfold takeList
  split
  · exact listFinish_effects s
  · exact .refl

theorem takeTiming_effects (s : State) : Effects s (takeTiming s) := by
  unfold takeTiming
  split
  · exact .refl
  · exact .single .timing

theorem takePlain_effects (s : State) : Effects s (takePlain s) :=
  (((((unitPlain_effects .b0 s).trans (unitPlain_effects .b1 _)).trans (unitPlain_effects .b2 _)).trans
    (takeRefiner_effects _)).trans (takeList_effects _)).trans (takeTiming_effects _)

theorem writeSlot_effects (k : SlotKind) (r : Reading) (s : State) : Effects s (writeSlot k r s) :=
  ((settleOwed_effects s).tail (.write k r rfl)).trans (takePlain_effects _)

/-! ### Frames and timers -/

theorem writeGood_effects (r : Reading) (s : State) : Effects s (writeGood r s) :=
  (setIntake_effects { s.intake with lastGood := some r } rfl).trans (writeSlot_effects _ _ _)

theorem writeHeld_effects (s : State) : Effects s (writeHeld s) := by
  unfold writeHeld
  split
  · exact .refl
  · exact (setIntake_effects _ (by rfl)).trans (writeGood_effects _ _)
  · exact (setIntake_effects _ (by rfl)).trans (writeSlot_effects _ _ _)

theorem writeHeldSlots_effects (n : Nat) (s : State) : Effects s (writeHeldSlots n s) := by
  induction n generalizing s with
  | zero => exact .refl
  | succ n ih => exact (writeHeld_effects s).trans (ih _)

theorem enterLost_effects (s : State) : Effects s (enterLost s) :=
  ((setIntake_effects _ (by rfl)).trans (writeSlot_effects _ _ _)).tail (.intakeRecord .begins)

theorem goodFrame_effects (g : GoodFrame) (s : State) : Effects s (goodFrame g s) := by
  unfold goodFrame
  dsimp only
  split
  · exact (setIntake_effects _ (by rfl)).trans (writeGood_effects _ _)
  · split
    · exact .refl
    · exact setIntake_effects _ rfl
  · exact ((setIntake_effects _ (by rfl)).trans (writeGood_effects _ _)).tail (.intakeRecord .ends)

theorem damagedFrame_effects (s : State) : Effects s (damagedFrame s) := by
  unfold damagedFrame
  split
  · exact .refl
  · exact (setIntake_effects _ (by rfl)).trans (writeSlot_effects _ _ _)
  · exact .refl

theorem judge_effects (bytes : List LinkByte) (s : State) : Effects s (judge bytes s) := by
  have hhunting : Effects s (s.setIntake { s.intake with assembler := .hunting }) := setIntake_effects _ rfl
  unfold judge
  dsimp only
  split
  · exact hhunting.trans (goodFrame_effects _ _)
  · exact hhunting.trans (damagedFrame_effects _)

theorem judgeComplete_effects (s : State) : Effects s (judgeComplete s) := by
  unfold judgeComplete
  split
  · exact (writeHeldSlots_effects _ s).trans (judge_effects _ _)
  · exact .refl

theorem settle_effects (s : State) : Effects s (settle s) :=
  ((judgeComplete_effects s).trans (writeHeldSlots_effects _ _)).trans (settleOwed_effects _)

theorem expireTimer_effects (k : Timer) (s : State) : Effects s (expireTimer k s) := by
  cases k with
  | assembly => exact (setIntake_effects _ (by rfl)).trans (damagedFrame_effects _)
  | link =>
    simp only [expireTimer, expireLink]
    split
    · exact enterLost_effects s
    all_goals exact setIntake_effects _ rfl
  | gapSlot =>
    simp only [expireTimer, expireGapSlot]
    split
    · exact (setIntake_effects _ (by rfl)).trans (writeSlot_effects _ _ _)
    all_goals exact setIntake_effects _ rfl

theorem changeDivider_effects (s : State) : Effects s (changeDivider s) := by
  unfold changeDivider
  dsimp only
  split
  · exact (setIntake_effects _ (by rfl)).trans (enterLost_effects _)
  all_goals exact setIntake_effects _ rfl

/-! ### The line and time -/

/-- The line is sampled on the way to an instant (R5). -/
theorem sampled_effects (now n : Nat) (rx : Receiver) (s : State) :
    Effects s ((s.setNow (max s.clock.now now)).setIntake (s.afterSamples n rx)) :=
  .tail (.single (.time _ (Nat.le_max_left _ _))) (.intake _ rfl)

theorem deliverByte_effects (v : LinkByte) (s : State) : Effects s (deliverByte v s) := by
  have hjudged := judgeComplete_effects s
  unfold deliverByte
  dsimp only
  split
  · split
    · exact hjudged.tail (.intake _ rfl)
    · exact hjudged
  · exact hjudged.tail (.intake _ rfl)

theorem sampleByte_effects (n : Nat) (rx : Receiver) (v : LinkByte) (s : State) : Effects s (sampleByte n rx v s) :=
  (sampled_effects _ n rx s).trans (deliverByte_effects v _)

theorem advanceLoop_effects (fuel target : Nat) (s : State) : Effects s (advanceLoop fuel target s) := by
  induction fuel generalizing s with
  | zero => exact sampled_effects _ _ _ s
  | succ fuel ih =>
    unfold advanceLoop
    dsimp only
    split
    · exact ((sampleByte_effects _ _ _ s).trans (settle_effects _)).trans (ih _)
    · exact (((sampled_effects _ _ _ s).trans (expireTimer_effects _ _)).trans (settle_effects _)).trans (ih _)
    · exact sampled_effects _ _ _ s

theorem advanceTo_effects (target : Nat) (s : State) : Effects s (advanceTo target s) := by
  unfold advanceTo
  split
  · exact (settle_effects s).trans (advanceLoop_effects _ _ _)
  · exact .refl

theorem runTimer_effects (k : Timer) (s : State) : Effects s (runTimer k s) := by
  unfold runTimer
  dsimp only
  split
  · exact settle_effects s
  · split
    · exact ((settle_effects s).trans (advanceTo_effects _ _)).trans (expireTimer_effects k _)
    · exact (settle_effects s).trans (advanceTo_effects _ _)

theorem takeSample_effects (s : State) : Effects s (takeSample s) := by
  unfold takeSample
  dsimp only
  split
  · exact sampleByte_effects _ _ _ s
  · exact sampled_effects _ _ _ s

theorem takeRun_effects (level : Bool) (n : Nat) (s : State) : Effects s (takeRun level n s) := by
  have hline : Effects s (s.setIntake { s.intake with line := level }) := setIntake_effects _ rfl
  unfold takeRun
  dsimp only
  split
  · exact hline
  · exact (hline.trans (advanceTo_effects _ _)).trans (takeSample_effects _)

theorem takeRuns_effects (line : Line) (s : State) : Effects s (line.foldl (fun t x => takeRun x.1 x.2 t) s) := by
  induction line generalizing s with
  | nil => exact .refl
  | cons x line ih => exact (takeRun_effects x.1 x.2 s).trans (ih _)

/-! ### Requests (R172, R173, R175) -/

theorem transact_effects (p : Port) (clocks : Nat) {body : State → State × Response}
    (hbody : ∀ t, Effects t (body t).1) (s : State) : Effects s (transact p clocks body s) := by
  unfold transact
  split
  · exact .single (.exchange p _ _ _ _)
  · exact (((finishBegun_effects s).tail (.exchange p _ _ _ _)).trans (hbody _)).tail (.exchange p _ _ _ _)

theorem request_effects {p : Port} {clocks : Nat} {body : State → State × Response} (h : RequestBody body)
    {s t : State} (ht : (.next (transact p clocks body s) : Host.Outcome State Fault Refusal) = .next t) :
    Effects s t := by
  cases ht
  exact transact_effects p clocks (fun u => .single (.request body h)) s

theorem setStationBody_effects (p : Port) (written : Station) (s : State) :
    Effects s (setStationBody p written (settleForStation (clampStation written) s)).1 := by
  have hsettled : Effects s (settleForStation (clampStation written) s) := by
    unfold settleForStation
    split
    · exact settleOwed_effects s
    · exact settle_effects s
  have howed : (settleForStation (clampStation written) s).owed = Owed.nothing := by
    unfold settleForStation
    split <;> rfl
  unfold setStationBody
  dsimp only
  split
  · rename_i hcore
    have haccepted := hsettled.tail (.setStation p written howed hcore)
    unfold acceptStation
    dsimp only
    split
    · exact haccepted
    · exact haccepted.trans (changeDivider_effects _)
  · exact hsettled

theorem startBody_effects (s : State) : Effects s (startBody (settleOwed s)).1 := by
  unfold startBody
  split
  · rename_i hcore
    exact (settleOwed_effects s).tail (.start rfl hcore)
  · exact settleOwed_effects s

theorem stopBody_effects (s : State) : Effects s (stopBody (settleOwed s)).1 := by
  unfold stopBody
  split
  · rename_i hcore
    exact (settleOwed_effects s).tail (.stop rfl hcore)
  · exact settleOwed_effects s

/-! ### Commands and steps -/

theorem effects_of_next {s t u : State} (h : Effects s t)
    (ht : (.next t : Host.Outcome State Fault Refusal) = .next u) : Effects s u := by
  cases ht
  exact h

theorem timingFinish_if_effects (due : Prop) [Decidable due] (s : State) :
    Effects s (if due then timingFinish s else s) := by
  split
  · exact .single .timing
  · exact .refl

theorem execReset_effects (edge : ResetEdge) {s t : State} (ht : execReset s edge = .next t) : Effects s t := by
  cases edge with
  | asserted a b =>
    exact effects_of_next (.single (.power s.intake.line true
      { a := assertResetPort a s.ports.a, b := assertResetPort b s.ports.b } fun p => by cases p <;> rfl)) ht
  | released a b =>
    exact effects_of_next (.single (.power s.intake.line false
      { a := releaseResetPort a, b := releaseResetPort b } fun p => by cases p <;> rfl)) ht

theorem execTimeMark_effects (after : Nat) {s t : State} (ht : execTimeMark after s = .next t) : Effects s t := by
  have hsettled := (advanceTo_effects (s.clock.now + after) s).trans (settleOwed_effects _)
  unfold execTimeMark at ht
  dsimp only at ht
  split at ht
  · exact effects_of_next hsettled ht
  · rename_i hn
    exact effects_of_next (hsettled.tail (.mark _ hn rfl)) ht

theorem execReadGrant_effects {s t : State} (ht : execReadGrant s = .next t) : Effects s t := by
  have hsettled := settle_effects s
  unfold execReadGrant at ht
  dsimp only at ht
  split at ht
  · exact effects_of_next hsettled ht
  · exact effects_of_next ((hsettled.trans (advanceTo_effects _ _)).tail .grant) ht

theorem execSetProfile_effects (p : Port) (rest : List Bool) {s t : State} (ht : execSetProfile p rest s = .next t) :
    Effects s t := by
  unfold execSetProfile at ht
  split at ht
  · split at ht
    · exact request_effects (.answer _) ht
    · exact effects_of_next (transact_effects p _
        (fun u => (settleOwed_effects u).tail (.setProfile p _ _ rfl)) s) ht
  · exact request_effects (.answer _) ht

theorem execSetStation_effects (p : Port) (rest : List Bool) {s t : State} (ht : execSetStation p rest s = .next t) :
    Effects s t := by
  unfold execSetStation at ht
  dsimp only at ht
  split at ht
  · exact request_effects (.answer _) ht
  · exact effects_of_next (transact_effects p _ (setStationBody_effects p _) s) ht

theorem execLockedOutSelect_effects (p : Port) (clocks : Nat) (held : Bool) {s t : State}
    (ht : execLockedOutSelect p clocks s held = .next t) : Effects s t := by
  unfold execLockedOutSelect at ht
  split at ht
  all_goals exact effects_of_next (.single (.exchange p _ _ _ _)) ht

/-- Row by row: a command is a chain of effects, a request the exchange around its body. -/
theorem exec_effects (c : Instr) {s t : State} (ht : exec c s = .next t) : Effects s t := by
  cases c with
  | powerOn =>
    exact effects_of_next (.single (.power true false (Ports.all PortInterface.reset) fun p => by cases p <;> rfl)) ht
  | reset edge => exact execReset_effects edge ht
  | frame hold => exact effects_of_next ((judgeComplete_effects s).trans (writeHeldSlots_effects _ _)) ht
  | assemblyTimerExpiry => exact effects_of_next (runTimer_effects .assembly s) ht
  | linkTimerExpiry => exact effects_of_next (runTimer_effects .link s) ht
  | gapSlotTimerExpiry => exact effects_of_next (runTimer_effects .gapSlot s) ht
  | timeMark after => exact execTimeMark_effects after ht
  | gapRunEvent =>
    exact effects_of_next ((((finishBegun_effects s).trans (unitRow_effects _ .b0 _)).trans
      (unitRow_effects _ .b1 _)).trans (unitRow_effects _ .b2 _)) ht
  | watchExpiry => exact effects_of_next ((finishBegun_effects s).trans (timingFinish_if_effects _ _)) ht
  | holdoverExpiry => exact effects_of_next ((finishBegun_effects s).trans (timingFinish_if_effects _ _)) ht
  | warmCountExpiry b => exact effects_of_next ((finishBegun_effects s).trans (unitRow_effects _ b _)) ht
  | primaryDeclaration b => exact effects_of_next ((finishBegun_effects s).trans (unitRow_effects _ b _)) ht
  | stackedDeclaration b => exact effects_of_next ((finishBegun_effects s).trans (unitRow_effects _ b _)) ht
  | maxDurExpiry b => exact effects_of_next ((finishBegun_effects s).trans (unitRow_effects _ b _)) ht
  | deadCountExpiry b => exact effects_of_next ((finishBegun_effects s).trans (unitRow_effects _ b _)) ht
  | launch =>
    exact effects_of_next (((finishList_effects s).trans (refinerFinish_effects _)).tail .examination) ht
  | scanStart => exact effects_of_next ((finishList_effects s).trans (refinerScanStart_effects _)) ht
  | readGrant => exact execReadGrant_effects ht
  | resolutionCompletion l => exact effects_of_next ((settleOwed_effects s).tail (.completion l)) ht
  | deadlineExpiry => exact effects_of_next ((finishList_effects s).trans (refinerExpiry_effects _)) ht
  | release => exact effects_of_next ((finishRefiner_effects s).trans (listFinish_effects _)) ht
  | retirement => exact effects_of_next ((finishRefiner_effects s).trans (listRetire_effects _)) ht
  | identify p rest => exact request_effects (.identify p) ht
  | status p rest => exact request_effects (.answer _) ht
  | attachAll p rest => exact request_effects (.attach p false) ht
  | attachFromNow p rest => exact request_effects (.attach p true) ht
  | attachUnknownMode p rest =>
    replace ht : execAttachUnknownMode p rest s = .next t := ht
    unfold execAttachUnknownMode at ht
    split at ht
    · exact request_effects (.answer _) ht
    · split at ht
      · cases ht
      · exact request_effects (.answer _) ht
  | detach p rest => exact request_effects (.detach p) ht
  | take p rest => exact request_effects (.take p) ht
  | confirm p rest =>
    replace ht : execConfirm p rest s = .next t := ht
    unfold execConfirm at ht
    split at ht
    · exact request_effects (.confirm p _) ht
    · exact request_effects (.answer _) ht
  | rewind p rest => exact request_effects (.rewind p) ht
  | fetch p rest =>
    replace ht : execFetch p rest s = .next t := ht
    unfold execFetch at ht
    split at ht
    · exact request_effects (.fetch p _ _ _) ht
    · exact request_effects (.answer _) ht
  | readFetch p rest => exact request_effects (.readFetch p) ht
  | getProfile p rest =>
    replace ht : execGetProfile p rest s = .next t := ht
    unfold execGetProfile at ht
    split at ht
    · exact request_effects (.getProfile _) ht
    · exact request_effects (.answer _) ht
  | setProfile p rest => exact execSetProfile_effects p rest ht
  | getStation p rest => exact request_effects (.answer _) ht
  | setStation p rest => exact execSetStation_effects p rest ht
  | setPort p rest =>
    replace ht : execSetPort p rest s = .next t := ht
    unfold execSetPort at ht
    split at ht
    · exact request_effects (.setPort p _ _) ht
    · exact request_effects (.answer _) ht
  | start p rest => exact effects_of_next (transact_effects p _ startBody_effects s) ht
  | stop p rest => exact effects_of_next (transact_effects p _ stopBody_effects s) ht
  | getAnchor p rest => exact request_effects (.answer _) ht
  | portReset p rest => exact request_effects (.portReset p) ht
  | unknownRequest p code rest =>
    replace ht : execUnknownRequest p code rest s = .next t := ht
    unfold execUnknownRequest at ht
    split at ht
    · cases ht
    · exact request_effects (.answer _) ht
  | emptyTransaction p bits =>
    replace ht : execEmptyTransaction p bits s = .next t := ht
    unfold execEmptyTransaction at ht
    split at ht
    · exact request_effects (.answer _) ht
    · cases ht
  | lockedOutSelect p clocks held => exact execLockedOutSelect_effects p clocks held ht
  | byteDelivered line => exact effects_of_next (takeRuns_effects line s) ht

theorem idle_effects (s : State) : Effects s (idle s) := by
  unfold idle
  split
  · exact settle_effects s
  · split
    · exact .single (.completion _)
    · split
      · exact .single .grant
      · exact advanceTo_effects _ s

/-- Every step is a chain of effects. -/
theorem step_effects {s t : State} (ht : step s = .next t) : Effects s t := by
  unfold step at ht
  split at ht
  · exact effects_of_next (idle_effects s) ht
  · rename_i c rest _
    exact (Relation.ReflTransGen.single (.dequeue rest)).trans (exec_effects c ht)

end Sys2Proof.Machine
end

section
/-! The signal path through a step: what the filters, the ring's cells, the Trigger Units and the core state undergo.
A condition on them that a move of a unit, a slot write, START, STOP and a reset keep is kept by every step. -/

namespace Sys2Proof.Machine

/-! ### What a unit finds when a case is due (R64, R65, R67 to R70, R73 to R75) -/

/-- What the due case of a unit says of it. -/
def UnitDue.Finds (d : UnitDue) (u : TriggerUnit) : Prop :=
  match d with
  | .nothing => True
  | .gapRun => u.state ≠ .off
  | .warm => u.state = .warming
  | .calIdle | .rewarm | .trigger => u.state = .idle
  | .calPending | .primary => u.state = .pending
  | .calDeclared | .fell | .maxDur => u.state = .declared
  | .stacked => u.state = .declared ∧ u.tOn2.isSome
  | .stackBegin => u.state = .declared ∧ u.tOn2 = none ∧ u.stack < 3
  | .dead => u.state = .cooldown

theorem TriggerUnit.due_finds (u : TriggerUnit) (n : Index) (cal gapRun : Bool) :
    (u.due n cal gapRun).Finds u := by
  unfold TriggerUnit.due
  cases h : u.state with
  | off => trivial
  | warming =>
    dsimp only
    split_ifs <;> simp [UnitDue.Finds, h]
  | idle =>
    dsimp only
    split_ifs <;> simp [UnitDue.Finds, h]
  | pending =>
    dsimp only
    split_ifs <;> simp [UnitDue.Finds, h]
  | declared =>
    dsimp only
    split_ifs <;> simp_all [UnitDue.Finds]
  | cooldown =>
    dsimp only
    split_ifs <;> simp [UnitDue.Finds, h]

theorem State.unitDue_finds (s : State) (b : Band) : (s.unitDue b).Finds (s.units.get b) :=
  (s.units.get b).due_finds _ _ _

/-! ### The moves of a unit (sections 5.3 to 5.6) -/

/-- What a unit may become at one stroke: by its handling of a slot write, or by an accepted profile. -/
inductive UnitMove (u : TriggerUnit) : TriggerUnit → Prop
  | stay : UnitMove u u
  /-- The gap-run event in PENDING or DECLARED (R68, R72). -/
  | gapRun (h : u.state.frozen = true) : UnitMove u u.unfreeze.enterWarming.applyStaged
  /-- WARMING again, from an unfrozen state (R65, R75). -/
  | warm (h : u.state = .warming ∨ u.state = .idle ∨ u.state = .cooldown) : UnitMove u u.enterWarming
  /-- IDLE after the warm count or the dead count (R64, R75). -/
  | idle (h : u.state = .warming ∨ u.state = .cooldown) : UnitMove u { u with state := .idle }
  /-- A CAL slot in IDLE (R65). -/
  | cal (h : u.state = .idle) : UnitMove u { u with rewarm := true }
  | trigger (n : Index) (h : u.state = .idle) : UnitMove u (u.trigger n)
  | abandon (rewarm : Bool) (h : u.state = .pending) : UnitMove u (u.abandon rewarm)
  | declare (h : u.state = .pending) : UnitMove u u.declare
  | beginStack (n : Index) (h : u.state = .declared) (h2 : u.tOn2 = none) (hstack : u.stack < 3) :
    UnitMove u (u.beginStack n)
  | endStack (h : u.state = .declared) : UnitMove u u.endStack
  | declareStacked (h : u.state = .declared) (h2 : u.tOn2.isSome) : UnitMove u u.declareStacked
  | cooldown (rewarm : Bool) (h : u.state = .declared) : UnitMove u (u.toCooldown rewarm).applyStaged
  /-- An accepted profile (R82, R83). -/
  | accept (g : Staged) : UnitMove u (u.accept g)

/-! ### What leaves the signal path alone -/

/-- The launch queue is empty and every lane is FREE (R116). -/
def Refiner.Empty (r : Refiner) : Prop := r.queue = [] ∧ r.lanes = Lanes.all .free

/-- The filters, the ring's cells, the units and the core state are the same in two states, and the refiner is still
empty if it was, unless a band is not OFF. -/
structure SameSignal (s t : State) : Prop where
  filters : t.filters = s.filters
  cells : t.ring.cells = s.ring.cells
  units : t.units = s.units
  core : t.settings.core = s.settings.core
  refiner : s.refiner.Empty → t.refiner.Empty ∨ ∃ b, (s.units.get b).state ≠ .off

theorem SameSignal.of_refiner {s t : State} (hfilters : t.filters = s.filters)
    (hcells : t.ring.cells = s.ring.cells) (hunits : t.units = s.units) (hcore : t.settings.core = s.settings.core)
    (hrefiner : t.refiner = s.refiner) : SameSignal s t :=
  ⟨hfilters, hcells, hunits, hcore, fun h => .inl (by rwa [hrefiner])⟩

theorem SameSignal.refl (s : State) : SameSignal s s := .of_refiner rfl rfl rfl rfl rfl

theorem SameSignal.trans {s t u : State} (h : SameSignal s t) (g : SameSignal t u) : SameSignal s u where
  filters := g.filters.trans h.filters
  cells := g.cells.trans h.cells
  units := g.units.trans h.units
  core := g.core.trans h.core
  refiner hs := by
    rcases h.refiner hs with ht | hon
    · simpa [h.units] using g.refiner ht
    · exact .inr hon

theorem OnlyRefined.sameSignal {s t : State} (h : OnlyRefined s t) (hempty : s.refiner.Empty → t.refiner.Empty) :
    SameSignal s t :=
  ⟨h.filters, by rw [h.ring], h.units, by rw [h.settings], fun hs => .inl (hempty hs)⟩

theorem OnlyRecords.sameSignal {s t : State} (h : OnlyRecords s t) : SameSignal s t :=
  h.toOnlyRefined.sameSignal fun hs => by rwa [h.refiner]

/-- Where a band is not OFF, what the refiner does is no matter. -/
theorem OnlyRefined.sameSignal_of_on {s t : State} (h : OnlyRefined s t) {b : Band}
    (hon : (s.units.get b).state ≠ .off) : SameSignal s t :=
  ⟨h.filters, by rw [h.ring], h.units, by rw [h.settings], fun _ => .inr ⟨b, hon⟩⟩

theorem setOwed_sameSignal (o : Owed) (s : State) : SameSignal s (s.setOwed o) := .of_refiner rfl rfl rfl rfl rfl

theorem setTmu_sameSignal (x : TimeMarkUnit) (s : State) : SameSignal s (s.setTmu x) := .of_refiner rfl rfl rfl rfl rfl

theorem setPort_sameSignal (p : Port) (i : PortInterface) (s : State) : SameSignal s (s.setPort p i) :=
  .of_refiner rfl rfl rfl rfl rfl

/-! ### An empty refiner stays empty -/

theorem launchExamination_sameSignal (s : State) : SameSignal s (launchExamination s) := by
  refine (launchExamination_frame s).sameSignal fun h => ?_
  have hsame : launchExamination s = s := by
    unfold launchExamination
    rw [h.1]
    split <;> rfl
  rwa [hsame]

theorem completeLane_sameSignal (l : LaneId) (s : State) : SameSignal s (completeLane l s) := by
  refine (completeLane_frame l s).sameSignal fun h => ?_
  have hsame : completeLane l s = s := by
    unfold completeLane
    rw [h.2, Lanes.get_all]
  rwa [hsame]

theorem completeOverdueLane_sameSignal (l : LaneId) (s : State) : SameSignal s (completeOverdueLane l s) := by
  unfold completeOverdueLane
  split
  · split
    · exact completeLane_sameSignal l s
    · exact .refl s
  all_goals exact .refl s

theorem completeOverdue_sameSignal (s : State) : SameSignal s (completeOverdue s) :=
  (((completeOverdueLane_sameSignal .l0 s).trans (completeOverdueLane_sameSignal .l1 _)).trans
    (completeOverdueLane_sameSignal .l2 _)).trans (completeOverdueLane_sameSignal .l3 _)

theorem expireLane_sameSignal (n : Index) (l : LaneId) (s : State) : SameSignal s (expireLane n l s) := by
  refine (expireLane_frame n l s).sameSignal fun h => ?_
  have hsame : expireLane n l s = s := by
    unfold expireLane
    rw [h.2, Lanes.get_all]
    rfl
  rwa [hsame]

theorem expireQueue_sameSignal (n : Index) (s : State) : SameSignal s (expireQueue n s) := by
  refine (expireQueue_frame n s).sameSignal fun h => ?_
  have hempty : expireQueue n s = s.setQueue [] := by
    unfold expireQueue
    rw [h.1]
    rfl
  rw [hempty]
  exact ⟨rfl, h.2⟩

theorem expiryStep_sameSignal (n : Index) (s : State) : SameSignal s (expiryStep n s) :=
  ((((expireLane_sameSignal n .l0 s).trans (expireLane_sameSignal n .l1 _)).trans
    (expireLane_sameSignal n .l2 _)).trans (expireLane_sameSignal n .l3 _)).trans (expireQueue_sameSignal n _)

theorem scanStartStep_sameSignal (n : Index) (s : State) : SameSignal s (scanStartStep n s) := by
  refine (scanStartStep_frame n s).sameSignal fun h => ⟨h.1, ?_⟩
  unfold scanStartStep
  rw [h.2]
  rfl

/-- A grant reads for a lane that scans, or for a fetch engine (R39, R184). -/
theorem grantRead_sameSignal (s : State) : SameSignal s (grantRead s) := by
  cases hg : s.grantee with
  | none =>
    have hsame : grantRead s = s := by rw [grantRead, hg]
    rw [hsame]
    exact .refl s
  | some x =>
    cases x with
    | lane l =>
      rw [grantRead_of_lane hg]
      refine ⟨rfl, rfl, rfl, rfl, fun h => .inl ⟨h.1, ?_⟩⟩
      show s.refiner.lanes.set l ((s.refiner.lanes.get l).afterRead s.ring) = _
      rw [h.2, Lanes.get_all]
      cases l <;> rfl
    | engine p =>
      rw [grantRead_of_engine hg]
      unfold grantEngine
      split
      · dsimp only
        split <;> exact .of_refiner rfl rfl rfl rfl rfl
      all_goals exact .of_refiner rfl rfl rfl rfl rfl

/-! ### The Time Mark Unit, the list and the ports beside the signal path -/

theorem changeTiming_sameSignal (x : TimingState) (c : Nat) (s : State) : SameSignal s (changeTiming x c s) :=
  (setTmu_sameSignal _ s).trans (changeTiming_onlyRecords x c s).sameSignal

theorem timingFinish_sameSignal (s : State) : SameSignal s (timingFinish s) := by
  unfold timingFinish
  split
  · split
    · exact (changeTiming_sameSignal _ _ s).trans (setOwed_sameSignal _ _)
    · split
      · exact (changeTiming_sameSignal _ _ s).trans (setOwed_sameSignal _ _)
      · exact setOwed_sameSignal _ s
  · exact .refl s

theorem latchMark_sameSignal (n : Newest) (s : State) : SameSignal s (latchMark n s) := by
  unfold latchMark
  dsimp only
  split
  · exact .of_refiner rfl rfl rfl rfl rfl
  · exact (setTmu_sameSignal _ s).trans (changeTiming_sameSignal _ _ _)

/-- The bodies of the requests that settle nothing leave the signal path alone. -/
theorem requestBody_sameSignal {body : State → State × Response} (h : RequestBody body) (s : State) :
    SameSignal s (body s).1 := by
  cases h with
  | answer r => exact .refl s
  | identify p =>
    unfold identifyBody
    dsimp only
    split
    · exact .refl s
    · exact setPort_sameSignal p _ s
  | attach p fromNow => exact (attachReader_frame p fromNow s).sameSignal
  | detach p =>
    unfold detachBody
    split
    · exact (detachReader_frame p s).sameSignal
    · exact .refl s
  | take p =>
    unfold takeBody
    dsimp only
    split
    · exact .refl s
    · split
      · exact .refl s
      · split
        · exact .refl s
        · exact (deliver_frame p _ s).sameSignal
  | confirm p v =>
    unfold confirmBody
    dsimp only
    split
    · exact .refl s
    · split
      · exact .refl s
      · exact (confirmUpTo_frame p v s).sameSignal
  | rewind p =>
    unfold rewindBody
    dsimp only
    split
    · exact .refl s
    · split
      · exact .refl s
      · exact ((setReader_frame p _ s).trans (evaluateBacklog_frame p _)).sameSignal
  | fetch p start count mask =>
    unfold fetchBody
    split
    · exact .refl s
    · split
      · exact .refl s
      · split
        · split <;> exact .refl s
        · split
          · exact .refl s
          · exact .of_refiner rfl rfl rfl rfl rfl
  | readFetch p =>
    unfold readFetchBody
    dsimp only
    split
    · exact .refl s
    · split
      · exact .refl s
      · exact setPort_sameSignal p _ s
    · split <;> exact setPort_sameSignal p _ s
  | getProfile b => cases b <;> exact .refl s
  | setPort p threshold mask =>
    exact (setPort_sameSignal p _ s).trans ((setReader_frame p _ _).trans (evaluateBacklog_frame p _)).sameSignal
  | portReset p => exact (detachReader_frame p s).sameSignal.trans (.of_refiner rfl rfl rfl rfl rfl)

/-! ### A unit's handling is a move of the unit -/

/-- A unit makes a move, and nothing else happens to the signal path. -/
def BandMoves (b : Band) (s t : State) : Prop :=
  ∃ u, UnitMove (s.units.get b) u ∧ SameSignal (s.setUnit b u) t

theorem SameSignal.bandMoves {s t : State} (h : SameSignal s t) (b : Band) : BandMoves b s t :=
  ⟨_, .stay, by simpa [State.setUnit] using h⟩

theorem setUnit_moves (b : Band) {u : TriggerUnit} {s : State} (h : UnitMove (s.units.get b) u) :
    BandMoves b s (s.setUnit b u) := ⟨u, h, .refl _⟩

theorem unitGapRun_moves {b : Band} {s : State} (h : (s.units.get b).state ≠ .off) :
    BandMoves b s (unitGapRun b s) := by
  unfold unitGapRun
  dsimp only
  split
  · rename_i hoff
    exact absurd hoff h
  · rename_i hdeclared
    exact ⟨_, .gapRun (by rw [hdeclared]; rfl), (handClose_frame b _ _ _).sameSignal⟩
  · rename_i hpending
    exact setUnit_moves b (.gapRun (by rw [hpending]; rfl))
  all_goals
    rename_i hstate
    exact setUnit_moves b (.warm (by simp [hstate]))

theorem unitPrimary_moves {b : Band} {s : State} (h : (s.units.get b).state = .pending) :
    BandMoves b s (unitPrimary b s) := by
  unfold unitPrimary
  dsimp only
  split
  · exact ⟨_, .declare h, (offerRequest_frame _ _).sameSignal_of_on (b := b) (by simp [TriggerUnit.declare])⟩
  · exact setUnit_moves b (.abandon _ h)

theorem unitStacked_moves {b : Band} {s : State} (h : (s.units.get b).state = .declared)
    (h2 : (s.units.get b).tOn2.isSome) : BandMoves b s (unitStacked b s) := by
  unfold unitStacked
  dsimp only
  split
  · exact ⟨_, .declareStacked h h2, ((truncateBand_frame b _ _).trans (offerRequest_frame _ _)).sameSignal_of_on
      (b := b) (by simp [TriggerUnit.declareStacked, h])⟩
  · exact setUnit_moves b (.endStack h)

theorem unitEnd_moves {b : Band} {s : State} (h : (s.units.get b).state = .declared) (c : CloseCause)
    (rewarm : Bool) : BandMoves b s (unitEnd b c rewarm s) :=
  ⟨_, .cooldown rewarm h, (handClose_frame b _ _ _).sameSignal⟩

theorem unitDead_moves {b : Band} {s : State} (h : (s.units.get b).state = .cooldown) :
    BandMoves b s (unitDead b s) := by
  unfold unitDead
  dsimp only
  split
  · exact setUnit_moves b (.warm (.inr (.inr h)))
  · exact setUnit_moves b (.idle (.inr h))

/-- Case by case: what a unit does at a slot write is a move of the unit. -/
theorem unitAct_moves {d : UnitDue} {b : Band} {s : State} (h : d.Finds (s.units.get b)) :
    BandMoves b s (unitAct d b s) := by
  cases d with
  | nothing => exact (SameSignal.refl s).bandMoves b
  | gapRun => exact unitGapRun_moves h
  | warm => exact setUnit_moves b (.idle (.inl h))
  | calIdle => exact setUnit_moves b (.cal h)
  | rewarm => exact setUnit_moves b (.warm (.inr (.inl h)))
  | trigger => exact setUnit_moves b (.trigger _ h)
  | calPending => exact setUnit_moves b (.abandon _ h)
  | primary => exact unitPrimary_moves h
  | calDeclared => exact unitEnd_moves h _ _
  | fell => exact unitEnd_moves h _ _
  | maxDur => exact unitEnd_moves h _ _
  | stacked => exact unitStacked_moves h.1 h.2
  | stackBegin => exact setUnit_moves b (.beginStack _ h.1 h.2.1 h.2.2)
  | dead => exact unitDead_moves h

theorem unitFinish_moves (b : Band) (s : State) : BandMoves b s (unitFinish b s) := by
  unfold unitFinish
  dsimp only
  split
  · obtain ⟨u, hu, hsame⟩ := unitAct_moves (s.unitDue_finds b)
    exact ⟨u, hu, hsame.trans (setOwed_sameSignal _ _)⟩
  · exact (SameSignal.refl s).bandMoves b

/-! ### The condition and what it survives -/

/-- A condition on the signal path that a move of a unit, a slot write, START, STOP and a reset keep. -/
structure SignalInvariant (P : State → Prop) : Prop where
  same : ∀ {s t : State}, SameSignal s t → P s → P t
  unit : ∀ {s : State} {b : Band} {u : TriggerUnit}, UnitMove (s.units.get b) u → P s → P (s.setUnit b u)
  write : ∀ (k : SlotKind) (r : Reading) {s : State}, P s → P (writeCore k r s)
  start : ∀ {s : State}, s.settings.core = .stopped → P s → P (startCore s)
  stop : ∀ {s : State}, s.settings.core = .running → P s → P (stopCore s)
  reset : P State.reset

section
variable {P : State → Prop}

theorem SignalInvariant.keeps_bandMoves (h : SignalInvariant P) {b : Band} {s t : State} (hst : BandMoves b s t)
    (hs : P s) : P t := by
  obtain ⟨u, hu, hsame⟩ := hst
  exact h.same hsame (h.unit hu hs)

theorem SignalInvariant.keeps_setProfile (h : SignalInvariant P) (p : Port) (b : Option Band) (written : Profile)
    {s : State} (hs : P s) : P (setProfileBody p b written s).1 := by
  cases b with
  | none => exact hs
  | some b =>
    refine h.same (raise_frame _ _ _).sameSignal (h.unit (.accept _) (h.same ?_ hs))
    exact .of_refiner rfl rfl rfl rfl rfl

/-- Effect by effect: the signal path is left alone, or it undergoes one of the five. -/
theorem SignalInvariant.keeps_effect (h : SignalInvariant P) {s t : State} (hst : Effect s t) (hs : P s) : P t := by
  cases hst with
  | intake f => exact h.same (s := s) (.of_refiner rfl rfl rfl rfl rfl) hs
  | time now => exact h.same (s := s) (.of_refiner rfl rfl rfl rfl rfl) hs
  | write k r => exact h.write k r (h.same (completeOverdue_sameSignal s) hs)
  | unit b => exact h.keeps_bandMoves (unitFinish_moves b s) hs
  | expiry => exact h.same ((expiryStep_sameSignal _ s).trans (setOwed_sameSignal _ _)) hs
  | scanStart => exact h.same ((scanStartStep_sameSignal _ s).trans (setOwed_sameSignal _ _)) hs
  | launch => exact h.same ((launchExamination_sameSignal s).trans (setOwed_sameSignal _ _)) hs
  | examination => exact h.same (launchExamination_sameSignal s) hs
  | completion l => exact h.same (completeLane_sameSignal l s) hs
  | retirement =>
    exact h.same (((takeUp_frame _ s).trans (retireRecords_frame _ _)).sameSignal.trans (setOwed_sameSignal _ _)) hs
  | release => exact h.same ((releaseRecords_frame _ s).sameSignal.trans (setOwed_sameSignal _ _)) hs
  | timing => exact h.same (timingFinish_sameSignal s) hs
  | mark n => exact h.same (latchMark_sameSignal n s) hs
  | intakeRecord x => exact h.same (intakeRecord_frame x s).sameSignal hs
  | settled => exact h.same (setOwed_sameSignal _ s) hs
  | grant => exact h.same (grantRead_sameSignal s) hs
  | exchange p => exact h.same (setPort_sameSignal p _ s) hs
  | request body hbody => exact h.same (requestBody_sameSignal hbody s) hs
  | setProfile p b written => exact h.keeps_setProfile p b written hs
  | setStation p written => exact h.same (s := s) (.of_refiner rfl rfl rfl rfl rfl) hs
  | start _ hcore => exact h.start hcore hs
  | stop _ hcore => exact h.stop hcore hs
  | power level held q => exact h.same (s := State.reset) (.of_refiner rfl rfl rfl rfl rfl) h.reset
  | dequeue rest => exact h.same (s := s) (.of_refiner rfl rfl rfl rfl rfl) hs

theorem SignalInvariant.keeps_step (h : SignalInvariant P) {s t : State} (hs : P s) (ht : step s = .next t) : P t :=
  (step_effects ht).keeps h.keeps_effect hs

end

end Sys2Proof.Machine
end

section
/-! The core and the Trigger Units kept by every step (R53, R54, R59, R62, R66, R73, R76, R83, R116). -/

namespace Sys2Proof.Machine

/-! ### What a slot write and an applied profile leave of a unit -/

theorem TriggerUnit.average_eq (u : TriggerUnit) (e : Energy) :
    u.average e = { u with sta := (u.average e).sta, lta := (u.average e).lta } := by
  unfold TriggerUnit.average
  split <;> rfl

theorem TriggerUnit.tally_eq (u : TriggerUnit) (cal gapRun : Bool) :
    u.tally cal gapRun =
      { u with
        staMin := (u.tally cal gapRun).staMin
        warmCount := (u.tally cal gapRun).warmCount
        deadCount := (u.tally cal gapRun).deadCount
        confirmCount := (u.tally cal gapRun).confirmCount
        stackCount := (u.tally cal gapRun).stackCount
        rewarm := (u.tally cal gapRun).rewarm } := by
  unfold TriggerUnit.tally
  split
  · rfl
  · rfl
  · rfl
  · rfl
  · rfl
  · split <;> rfl

/-- A slot write's averages and counts are all it changes of a unit before its tests (R58, R59, R64, R67, R69, R75). -/
theorem TriggerUnit.tick_eq (u : TriggerUnit) (e : Energy) (cal gapRun : Bool) :
    u.tick e cal gapRun =
      { u with
        sta := (u.average e).sta
        lta := (u.average e).lta
        staMin := (u.tick e cal gapRun).staMin
        warmCount := (u.tick e cal gapRun).warmCount
        deadCount := (u.tick e cal gapRun).deadCount
        confirmCount := (u.tick e cal gapRun).confirmCount
        stackCount := (u.tick e cal gapRun).stackCount
        rewarm := (u.tick e cal gapRun).rewarm } := by
  unfold TriggerUnit.tick
  refine (TriggerUnit.tally_eq _ cal gapRun).trans ?_
  rw [TriggerUnit.average_eq u e]

theorem tickUnits_get (v : Slot) (gapRun : Bool) (us : Bands TriggerUnit) (b : Band) :
    (tickUnits v gapRun us).get b = (us.get b).tick (v.energy.get b) v.reading.cal gapRun := by
  cases b <;> rfl

theorem writeCore_units (k : SlotKind) (r : Reading) (s : State) (b : Band) :
    ∃ (e : Energy) (cal gapRun : Bool), (writeCore k r s).units.get b = (s.units.get b).tick e cal gapRun :=
  ⟨_, _, _, tickUnits_get _ _ s.units b⟩

theorem writeCore_filters (k : SlotKind) (r : Reading) (s : State) :
    (writeCore k r s).filters =
      filterStep s.settings.core (fun b => (s.units.get b).profile) r s.filters := rfl

/-- A unit after a profile has been applied, or with none staged: it may have gone to WARMING, and its averages, its
trigger slots and its stack index are as before (R82 to R84). -/
structure Applied (u v : TriggerUnit) : Prop where
  state : v.state = u.state ∨ u.state ≠ .off ∧ v.state = .warming
  staged : v.staged = none
  sta : v.sta = u.sta
  lta : v.lta = u.lta
  frozenLta : v.frozenLta = u.frozenLta
  staMin : v.staMin = u.staMin
  heldMin : v.heldMin = u.heldMin
  tOn : v.tOn = u.tOn
  tOn2 : v.tOn2 = u.tOn2
  stack : v.stack = u.stack

theorem applyProfile_applied (u : TriggerUnit) (g : Staged) : Applied u (u.applyProfile g) := by
  unfold TriggerUnit.applyProfile
  dsimp only
  split
  · exact ⟨.inl rfl, rfl, rfl, rfl, rfl, rfl, rfl, rfl, rfl, rfl⟩
  · rename_i h
    exact ⟨.inr ⟨fun hoff => h (by simp [hoff]), rfl⟩, rfl, rfl, rfl, rfl, rfl, rfl, rfl, rfl, rfl⟩

theorem applyStaged_applied (u : TriggerUnit) : Applied u u.applyStaged := by
  unfold TriggerUnit.applyStaged
  split
  · rename_i h
    exact ⟨.inl rfl, h, rfl, rfl, rfl, rfl, rfl, rfl, rfl, rfl⟩
  · exact applyProfile_applied u _

theorem Applied.off_iff {u v : TriggerUnit} (h : Applied u v) : v.state = .off ↔ u.state = .off := by
  rcases h.state with hsame | ⟨hon, hwarming⟩
  · rw [hsame]
  · simp [hwarming, hon]

theorem Applied.not_frozen {u v : TriggerUnit} (h : Applied u v) (hu : u.state.frozen = false) :
    v.state.frozen = false := by
  rcases h.state with hsame | ⟨-, hwarming⟩
  · rwa [hsame]
  · rw [hwarming]
    rfl

/-! ### OFF and on (R62, R85, R86) -/

/-- No move takes a band to OFF or out of it. -/
theorem UnitMove.off_iff {u v : TriggerUnit} (h : UnitMove u v) : v.state = .off ↔ u.state = .off := by
  cases h with
  | stay => rfl
  | gapRun hu =>
    rw [(applyStaged_applied _).off_iff]
    simp only [TriggerUnit.enterWarming, reduceCtorEq, false_iff]
    exact fun hoff => by rw [hoff] at hu; cases hu
  | warm hu =>
    simp only [TriggerUnit.enterWarming, reduceCtorEq, false_iff]
    exact fun hoff => by simp [hoff] at hu
  | idle hu =>
    simp only [reduceCtorEq, false_iff]
    exact fun hoff => by simp [hoff] at hu
  | cal => rfl
  | trigger n hu => simp [TriggerUnit.trigger, hu]
  | abandon w hu =>
    unfold TriggerUnit.abandon
    rw [(applyStaged_applied _).off_iff]
    simp [hu]
  | declare hu => simp [TriggerUnit.declare, hu]
  | beginStack => rfl
  | endStack => rfl
  | declareStacked => rfl
  | cooldown w hu =>
    rw [(applyStaged_applied _).off_iff]
    simp [TriggerUnit.toCooldown, hu]
  | accept g =>
    unfold TriggerUnit.accept
    split
    · rfl
    · exact (applyProfile_applied u g).off_iff

theorem State.coreKept_stopped {s : State} (h : s.settings.core = .stopped) :
    s.CoreKept ↔ (∀ b, (s.units.get b).state = .off) ∧ s.filters = FilterBank.reset ∧ s.refiner.Empty := by
  unfold State.CoreKept
  rw [h]
  rfl

theorem State.coreKept_running {s : State} (h : s.settings.core = .running) :
    s.CoreKept ↔ ∀ b, (s.units.get b).state ≠ .off := by
  unfold State.CoreKept
  rw [h]

/-- The core is kept while its state and the OFF bands are the same and, while STOPPED, the filters and the empty
refiner are. -/
theorem State.CoreKept.of_same {s t : State} (hs : s.CoreKept) (hcore : t.settings.core = s.settings.core)
    (hoff : ∀ b, (t.units.get b).state = .off ↔ (s.units.get b).state = .off)
    (hstopped : s.settings.core = .stopped → (∀ b, (s.units.get b).state = .off) → s.refiner.Empty →
      t.filters = s.filters ∧ t.refiner.Empty) : t.CoreKept := by
  cases hc : s.settings.core with
  | stopped =>
    obtain ⟨hbands, hfilters, hempty⟩ := (State.coreKept_stopped hc).1 hs
    obtain ⟨hsame, hempty'⟩ := hstopped hc hbands hempty
    exact (State.coreKept_stopped (hcore.trans hc)).2
      ⟨fun b => (hoff b).2 (hbands b), hsame.trans hfilters, hempty'⟩
  | running =>
    exact (State.coreKept_running (hcore.trans hc)).2 fun b => mt (hoff b).1 ((State.coreKept_running hc).1 hs b)

theorem start_state (u : TriggerUnit) : u.start.state = .warming := rfl

theorem stop_applied (u : TriggerUnit) : Applied { u with state := .off } u.stop := applyStaged_applied _

theorem startCore_unit (s : State) (b : Band) : (startCore s).units.get b = (s.units.get b).start := by
  cases b <;> rfl

theorem stopCore_unit (s : State) (b : Band) : (stopCore s).units.get b = (s.units.get b).stop := by
  cases b <;> rfl

/-- R53, R54, R62, R116: a STOPPED core's bands, averages and refiner stand still. -/
theorem coreKept_invariant : SignalInvariant State.CoreKept where
  same h hs := hs.of_same h.core (fun b => by rw [h.units]) fun _ hbands hempty =>
    ⟨h.filters, (h.refiner hempty).resolve_right fun ⟨b, hon⟩ => hon (hbands b)⟩
  unit {s b u} hu hs := by
    refine hs.of_same rfl (fun c => ?_) fun _ _ hempty => ⟨rfl, hempty⟩
    rw [State.setUnit_units, Bands.get_set]
    split
    · rename_i hc
      rw [hc]
      exact hu.off_iff
    · rfl
  write k r s hs := by
    refine hs.of_same rfl (fun b => ?_) fun hcore _ hempty => ⟨?_, hempty.1, ?_⟩
    · obtain ⟨e, cal, gapRun, hunit⟩ := writeCore_units k r s b
      rw [hunit, TriggerUnit.tick_eq]
    · rw [writeCore_filters, hcore]
      rfl
    · unfold writeCore
      rw [hempty.2]
      rfl
  start {s} _ _ := (State.coreKept_running rfl).2 fun b => by rw [startCore_unit, start_state]; exact nofun
  stop {s} _ _ := by
    refine (State.coreKept_stopped rfl).2 ⟨fun b => ?_, rfl, rfl, rfl⟩
    rw [stopCore_unit]
    exact (stop_applied _).off_iff.2 rfl
  reset := reset_coreKept

/-! ### What a unit holds agrees with its state (R59, R66, R73, R76, R83) -/

/-- A unit that is OFF holds what it does by chance, but no staged profile (R86). -/
theorem TriggerUnit.Kept.of_off {u : TriggerUnit} (h : u.state = .off) (hstaged : u.staged = none)
    (hstack : u.stack ≤ 3) : u.Kept := by
  simp [TriggerUnit.Kept, h, hstaged, hstack, BandState.frozen]

/-- A unit that is neither PENDING nor DECLARED is kept while it holds no frozen value, no trigger slot and no staged
profile (R59, R83). -/
theorem TriggerUnit.Kept.of_unfrozen {u : TriggerUnit} (h : u.state.frozen = false) (hstaged : u.staged = none)
    (hfrozen : u.frozenLta = none) (htOn : u.tOn = none) (htOn2 : u.tOn2 = none) (hstack : u.stack ≤ 3) :
    u.Kept := by
  have hdeclared : u.state ≠ .declared := fun hd => by simp [hd, BandState.frozen] at h
  simp [TriggerUnit.Kept, h, hstaged, hfrozen, htOn, htOn2, hstack, hdeclared]

theorem TriggerUnit.Kept.stack_le {u : TriggerUnit} (h : u.Kept) : u.stack ≤ 3 := by
  obtain ⟨-, -, -, -, -, hstack, -⟩ := h
  exact hstack

theorem TriggerUnit.Kept.staged {u : TriggerUnit} (h : u.Kept) (hu : u.state.frozen = false) : u.staged = none := by
  obtain ⟨-, -, -, -, -, -, hstaged⟩ := h
  simpa [hu] using hstaged

/-- In WARMING, IDLE and COOLDOWN no LTA is frozen and no trigger slot is held (R59, R63). -/
theorem TriggerUnit.Kept.released {u : TriggerUnit} (h : u.Kept)
    (hu : u.state = .warming ∨ u.state = .idle ∨ u.state = .cooldown) :
    u.staged = none ∧ u.frozenLta = none ∧ u.tOn = none ∧ u.tOn2 = none := by
  have hunfrozen : u.state.frozen = false := by rcases hu with hu | hu | hu <;> rw [hu] <;> rfl
  obtain ⟨-, hrun, hsecond, -⟩ := id h
  obtain ⟨hfrozen, htOn⟩ := hrun hu
  exact ⟨h.staged hunfrozen, hfrozen, htOn, hsecond (hu.imp_right (Or.imp_right .inr))⟩

/-- Once the trigger slots are dropped, an applied profile leaves the unit kept. -/
theorem Applied.kept {u v : TriggerUnit} (h : Applied u v) (hu : u.state.frozen = false) (hfrozen : u.frozenLta = none)
    (htOn : u.tOn = none) (htOn2 : u.tOn2 = none) (hstack : u.stack ≤ 3) : v.Kept :=
  .of_unfrozen (h.not_frozen hu) h.staged (h.frozenLta.trans hfrozen) (h.tOn.trans htOn) (h.tOn2.trans htOn2)
    (h.stack ▸ hstack)

theorem TriggerUnit.Kept.accept {u : TriggerUnit} (h : u.Kept) (g : Staged) : (u.accept g).Kept := by
  have happlied := applyProfile_applied u g
  unfold TriggerUnit.accept
  split
  · rename_i hfrozen
    obtain ⟨hf, hr, hs, hd, hk, hstack, -⟩ := h
    exact ⟨hf, hr, hs, hd, hk, hstack, fun _ => hfrozen⟩
  · rename_i hfrozen
    cases hstate : u.state with
    | off => exact .of_off (happlied.off_iff.2 hstate) happlied.staged (happlied.stack ▸ h.stack_le)
    | warming | idle | cooldown =>
      obtain ⟨-, hf, htOn, htOn2⟩ := h.released (by simp [hstate])
      exact happlied.kept (by simp [hstate, BandState.frozen]) hf htOn htOn2 h.stack_le
    | pending | declared => simp [hstate, BandState.frozen] at hfrozen

/-- Each move leaves what its new state asks for. -/
theorem UnitMove.kept {u v : TriggerUnit} (h : UnitMove u v) (hu : u.Kept) : v.Kept := by
  have hstack := hu.stack_le
  cases h with
  | stay => exact hu
  | gapRun => exact (applyStaged_applied _).kept rfl rfl rfl rfl hstack
  | warm hstate =>
    obtain ⟨hstaged, hf, htOn, htOn2⟩ := hu.released hstate
    exact .of_unfrozen rfl hstaged hf htOn htOn2 hstack
  | idle hstate =>
    obtain ⟨hstaged, hf, htOn, htOn2⟩ := hu.released (hstate.imp_right .inr)
    exact .of_unfrozen rfl hstaged hf htOn htOn2 hstack
  | cal => exact hu
  | trigger n hstate =>
    obtain ⟨hstaged, -, -, htOn2⟩ := hu.released (.inr (.inl hstate))
    simp [TriggerUnit.Kept, TriggerUnit.trigger, BandState.frozen, hstaged, htOn2, hstack]
  | abandon => exact (applyStaged_applied _).kept rfl rfl rfl rfl hstack
  | declare hstate =>
    obtain ⟨hfrozen, -⟩ := hu
    obtain ⟨hf, htOn⟩ := hfrozen (by rw [hstate]; rfl)
    simp [TriggerUnit.Kept, TriggerUnit.declare, BandState.frozen, hf, htOn]
  | beginStack n hstate _ hlt =>
    obtain ⟨hfrozen, -⟩ := hu
    obtain ⟨hf, htOn⟩ := hfrozen (by rw [hstate]; rfl)
    simp [TriggerUnit.Kept, TriggerUnit.beginStack, BandState.frozen, hstate, hf, htOn, hlt, hstack]
  | endStack hstate =>
    obtain ⟨hfrozen, -⟩ := hu
    obtain ⟨hf, htOn⟩ := hfrozen (by rw [hstate]; rfl)
    simp [TriggerUnit.Kept, TriggerUnit.endStack, BandState.frozen, hstate, hf, htOn, hstack]
  | declareStacked hstate h2 =>
    obtain ⟨hfrozen, -, -, -, hlt, -⟩ := hu
    obtain ⟨hf, htOn⟩ := hfrozen (by rw [hstate]; rfl)
    simpa [TriggerUnit.Kept, TriggerUnit.declareStacked, BandState.frozen, hstate, hf, htOn] using hlt hstate h2
  | cooldown => exact (applyStaged_applied _).kept rfl rfl rfl rfl hstack
  | accept g => exact hu.accept g

/-- R85: START finds the band OFF, so with no staged profile. -/
theorem TriggerUnit.Kept.start {u : TriggerUnit} (h : u.Kept) (hoff : u.state = .off) : u.start.Kept :=
  .of_unfrozen rfl (h.staged (by rw [hoff]; rfl)) rfl rfl rfl h.stack_le

/-- R86: STOP applies the staged profile. -/
theorem TriggerUnit.Kept.stop {u : TriggerUnit} (h : u.Kept) : u.stop.Kept :=
  .of_off ((stop_applied u).off_iff.2 rfl) (stop_applied u).staged ((stop_applied u).stack ▸ h.stack_le)

/-- R59, R66, R73, R76, R83: the units stay kept beside a kept core, which is what START rests on. -/
theorem unitsKept_invariant : SignalInvariant fun s => s.CoreKept ∧ s.UnitsKept where
  same h := fun ⟨hcore, hunits⟩ => ⟨coreKept_invariant.same h hcore, fun b => by rw [h.units]; exact hunits b⟩
  unit {s b u} hu := fun ⟨hcore, hunits⟩ => by
    refine ⟨coreKept_invariant.unit hu hcore, fun c => ?_⟩
    rw [State.setUnit_units, Bands.get_set]
    split
    · exact hu.kept (hunits b)
    · exact hunits c
  write k r s := fun ⟨hcore, hunits⟩ => by
    refine ⟨coreKept_invariant.write k r hcore, fun b => ?_⟩
    obtain ⟨e, cal, gapRun, hunit⟩ := writeCore_units k r s b
    rw [hunit, TriggerUnit.tick_eq]
    exact hunits b
  start {s} h := fun ⟨hcore, hunits⟩ => by
    refine ⟨coreKept_invariant.start h hcore, fun b => ?_⟩
    rw [startCore_unit]
    exact (hunits b).start (((State.coreKept_stopped h).1 hcore).1 b)
  stop {s} h := fun ⟨hcore, hunits⟩ => by
    refine ⟨coreKept_invariant.stop h hcore, fun b => ?_⟩
    rw [stopCore_unit]
    exact (hunits b).stop
  reset := ⟨reset_coreKept, reset_unitsKept⟩

/-- Settles O8: the core is kept by what the signal path undergoes, and beside it the units are. -/
theorem coreAndUnitsKeptByEveryStep : Obligations.CoreAndUnitsKeptByEveryStep :=
  ⟨fun _ _ => coreKept_invariant.keeps_step,
    fun _ _ hcore hunits ht => (unitsKept_invariant.keeps_step ⟨hcore, hunits⟩ ht).2⟩

end Sys2Proof.Machine
end

section
/-! The filter step's arithmetic (R46 to R50, R58): how an average moves, what a band-passed value and an energy are,
and when a band saturates. -/

namespace Sys2Proof.Machine

/-! ### Averages (R46, R58) -/

/-- From at or below its target an average moves towards it and not past it. -/
theorem approach_of_le {k : Nat} {x t : Int} (h : x ≤ t) : x ≤ approach k x t ∧ approach k x t ≤ t := by
  have hnonneg : 0 ≤ (t - x) / 2 ^ k := Int.ediv_nonneg (by omega) (by positivity)
  have hle : (t - x) / 2 ^ k ≤ t - x := Int.ediv_le_self _ (by omega)
  unfold approach
  omega

/-- From above its target an average moves down by at least 1 and not past it. -/
theorem approach_of_lt {k : Nat} {x t : Int} (h : t < x) : t ≤ approach k x t ∧ approach k x t < x := by
  have hpow : (0 : Int) < 2 ^ k := by positivity
  have hneg : (t - x) / 2 ^ k < 0 := Int.ediv_neg_of_neg_of_pos (by omega) hpow
  have hle : t - x ≤ (t - x) / 2 ^ k := (Int.le_ediv_iff_mul_le hpow).2 (by nlinarith)
  unfold approach
  omega

/-- A range that holds an average and its target holds the average moved. -/
theorem approach_mem {k : Nat} {lo hi x t : Int} (hx : lo ≤ x ∧ x ≤ hi) (ht : lo ≤ t ∧ t ≤ hi) :
    lo ≤ approach k x t ∧ approach k x t ≤ hi := by
  rcases le_or_gt x t with h | h
  · have hmove := approach_of_le (k := k) h
    omega
  · have hmove := approach_of_lt (k := k) h
    omega

/-- Below its target by less than 2^k, an average stays. -/
theorem approach_stays {k : Nat} {x t : Int} (hle : x ≤ t) (hlt : t - x < 2 ^ k) : approach k x t = x := by
  rw [approach, Int.ediv_eq_zero_of_lt (by omega) hlt, add_zero]

theorem approach_zero (x t : Int) : approach 0 x t = t := by
  simp [approach]

/-! ### Band-passed values (R48) -/

theorem passed_eq (q : AveragePair) : passed q = max (-8388608) (min 8388607 ((q.fast - q.slow) / 256)) := by
  unfold passed passedExact
  split_ifs <;> omega

/-- A value that was saturated is at one end of a sample's range, so its square is large. -/
theorem sq_passed_of_saturated {q : AveragePair} (h : passedExact q ≠ passed q) : 8388607 ^ 2 ≤ passed q ^ 2 := by
  unfold passed at h ⊢
  split_ifs at h ⊢
  · norm_num
  · norm_num
  · exact absurd rfl h

/-! ### Energies and ESAT (R49, R50) -/

theorem energySaturated_toNat (x : Nat) : (energySaturated x).toNat = min x 4294967295 := by
  have hlt : min x 4294967295 < 2 ^ 32 := by omega
  exact Nat.mod_eq_of_lt hlt

theorem bandEnergy_toNat (c : Comps AveragePair) :
    (bandEnergy c).toNat = min ((passed c.z ^ 2 + passed c.n ^ 2 + passed c.e ^ 2) / 256).toNat 4294967295 :=
  energySaturated_toNat _

theorem bandVertical_toNat (c : Comps AveragePair) :
    (bandVertical c).toNat = min (passed c.z ^ 2 / 256).toNat 4294967295 := energySaturated_toNat _

/-- No component's square exceeds the sum of the three. -/
theorem sq_passed_le_squareSum (c : Comps AveragePair) :
    passed c.z ^ 2 ≤ squareSum c ∧ passed c.n ^ 2 ≤ squareSum c ∧ passed c.e ^ 2 ≤ squareSum c := by
  have hz := sq_nonneg (passed c.z)
  have hn := sq_nonneg (passed c.n)
  have he := sq_nonneg (passed c.e)
  unfold squareSum
  omega

theorem bandVertical_le_bandEnergy (c : Comps AveragePair) : (bandVertical c).toNat ≤ (bandEnergy c).toNat := by
  have hquotient : passed c.z ^ 2 / 256 ≤ squareSum c / 256 :=
    Int.ediv_le_ediv (by decide) (sq_passed_le_squareSum c).1
  rw [bandVertical_toNat, bandEnergy_toNat]
  exact min_le_min_right _ (Int.toNat_le_toNat hquotient)

/-- A saturated value of a band brings the sum of squares past what an energy holds. -/
theorem squareSum_of_saturated {c : Comps AveragePair}
    (h : passedExact c.z ≠ passed c.z ∨ passedExact c.n ≠ passed c.n ∨ passedExact c.e ≠ passed c.e) :
    4294967295 < squareSum c / 256 := by
  obtain ⟨hz, hn, he⟩ := sq_passed_le_squareSum c
  have hlarge : 8388607 ^ 2 ≤ squareSum c := by
    rcases h with h | h | h
    · exact (sq_passed_of_saturated h).trans hz
    · exact (sq_passed_of_saturated h).trans hn
    · exact (sq_passed_of_saturated h).trans he
  omega

/-- R50: a band saturates exactly when its energy does, since a saturated value or vertical energy saturates it. -/
theorem bandSaturates_iff (c : Comps AveragePair) : bandSaturates c = true ↔ 4294967295 < squareSum c / 256 := by
  have hexact : ∀ sum : Int, Config.energyTop < energyExact sum ↔ 4294967295 < sum / 256 := fun sum => by
    unfold energyExact Config.energyTop
    omega
  have hvertical : passed c.z ^ 2 / 256 ≤ squareSum c / 256 :=
    Int.ediv_le_ediv (by decide) (sq_passed_le_squareSum c).1
  simp only [bandSaturates, Bool.or_eq_true, bne_iff_ne, decide_eq_true_eq, hexact]
  constructor
  · rintro ((((hz | hn) | he) | hsum) | hv)
    · exact squareSum_of_saturated (.inl hz)
    · exact squareSum_of_saturated (.inr (.inl hn))
    · exact squareSum_of_saturated (.inr (.inr he))
    · exact hsum
    · exact hv.trans_le hvertical
  · exact fun hsum => .inl (.inr hsum)

/-- Settles O16: the averages' moves, and the values and energies by their quotients. -/
theorem averagesAndEnergiesFollowTheirRules : Obligations.AveragesAndEnergiesFollowTheirRules :=
  ⟨fun _ _ _ => rfl, fun _ _ _ => approach_of_le, fun _ _ _ => approach_of_lt, fun _ _ _ => approach_stays,
    approach_zero, fun _ _ _ => rfl, passed_eq, fun c =>
      ⟨bandVertical_le_bandEnergy c, bandEnergy_toNat c, bandVertical_toNat c, bandSaturates_iff c, fun h =>
        (bandSaturates_iff c).2 (squareSum_of_saturated (h.imp Ne.symm (Or.imp Ne.symm Ne.symm)))⟩⟩

end Sys2Proof.Machine
end

section
/-! The averages and the stored energies stay in their ranges through every step (R47, R49, R58). -/

namespace Sys2Proof.Machine

/-! ### The ranges of one band and of one unit -/

/-- The three pairs of a band lie in their range (R47). -/
def bandAveragesKept (c : Comps AveragePair) : Prop := c.z.Kept ∧ c.n.Kept ∧ c.e.Kept

/-- The averages and the values a unit has taken from them lie in their range (R58). -/
def TriggerUnit.InRange (u : TriggerUnit) : Prop :=
  u.sta ≤ averageTop ∧ u.lta ≤ averageTop ∧ u.staMin ≤ averageTop
    ∧ (∀ x, u.frozenLta = some x → x ≤ averageTop) ∧ ∀ x, u.heldMin = some x → x ≤ averageTop

/-- No vertical energy of a slot exceeds its energy (R49). -/
def Slot.VerticalBelow (v : Slot) : Prop := ∀ b, (v.vertical.get b).toNat ≤ (v.energy.get b).toNat

theorem State.averagesKept_iff (s : State) :
    s.AveragesKept ↔ (∀ b, bandAveragesKept (s.filters.get b)) ∧ (∀ b, (s.units.get b).InRange)
      ∧ ∀ c ∈ s.ring.cells, c.2.VerticalBelow := Iff.rfl

/-! ### The filter step and the slot (R46, R47, R49) -/

/-- The target, 256 times a sample, lies in the averages' range. -/
theorem filterPair_kept (p : Profile) (x : Sample) {q : AveragePair} (h : q.Kept) : (filterPair p x q).Kept := by
  have htarget : -2147483648 ≤ 256 * x.toInt ∧ 256 * x.toInt ≤ 2147483392 := by
    have hlo := BitVec.le_toInt x
    have hhi := BitVec.toInt_lt (x := x)
    omega
  exact ⟨approach_mem h.1 htarget, approach_mem h.2 htarget⟩

theorem filterStep_kept (core : CoreState) (profile : Band → Profile) (r : Reading) {f : FilterBank}
    (h : ∀ b, bandAveragesKept (f.get b)) (b : Band) : bandAveragesKept ((filterStep core profile r f).get b) := by
  cases core with
  | stopped => exact h b
  | running =>
    obtain ⟨hz, hn, he⟩ := h b
    rw [filterStep_get]
    exact ⟨filterPair_kept _ _ hz, filterPair_kept _ _ hn, filterPair_kept _ _ he⟩

theorem completeSlot_verticalBelow (core : CoreState) (f : FilterBank) (r : Reading) (damaged gap : Bool) :
    (completeSlot core f r damaged gap).VerticalBelow := by
  intro b
  cases core with
  | stopped => cases b <;> exact Nat.le_refl _
  | running =>
    obtain ⟨henergy, hvertical⟩ := completeSlot_running f r damaged gap b
    rw [henergy, hvertical]
    exact bandVertical_le_bandEnergy _

theorem mem_writeCell {pos : Nat} {v : Slot} {cells : List (Nat × Slot)} {c : Nat × Slot}
    (h : c ∈ writeCell pos v cells) : c = (pos, v) ∨ c ∈ cells := by
  induction cells with
  | nil => simpa [writeCell] using h
  | cons d more ih =>
    obtain ⟨q, w⟩ := d
    unfold writeCell at h
    split at h
    · exact List.mem_cons.1 h
    · split at h
      · exact (List.mem_cons.1 h).imp_right (List.mem_cons_of_mem _)
      · rcases List.mem_cons.1 h with rfl | hmore
        · exact .inr List.mem_cons_self
        · exact (ih hmore).imp_right (List.mem_cons_of_mem _)

/-! ### The units (R58) -/

/-- STA and LTA move towards 256 times an energy, which lies in their range. -/
theorem averageStep_le (k : Nat) {x : Nat} (e : Energy) (h : x ≤ averageTop) : averageStep k x e ≤ averageTop := by
  have htarget : (0 : Int) ≤ 256 * (e.toNat : Int) ∧ 256 * (e.toNat : Int) ≤ averageTop := by
    have he := e.isLt
    unfold averageTop Config.energyTop
    omega
  have hmove := (approach_mem (k := k) (x := x) (lo := 0) (hi := averageTop) (by omega) htarget).2
  unfold averageStep
  omega

theorem TriggerUnit.InRange.average {u : TriggerUnit} (h : u.InRange) (e : Energy) : (u.average e).InRange := by
  obtain ⟨hsta, hlta, hrest⟩ := h
  unfold TriggerUnit.average
  split
  · exact ⟨hsta, hlta, hrest⟩
  · refine ⟨averageStep_le _ e hsta, ?_, hrest⟩
    dsimp only
    split
    · exact hlta
    · exact averageStep_le _ e hlta

theorem TriggerUnit.InRange.tally {u : TriggerUnit} (h : u.InRange) (cal gapRun : Bool) :
    (u.tally cal gapRun).InRange := by
  unfold TriggerUnit.tally
  split
  · exact h
  · exact h
  · exact h
  · exact h
  · obtain ⟨hsta, hlta, hmin, hrest⟩ := h
    exact ⟨hsta, hlta, (Nat.min_le_left _ _).trans hmin, hrest⟩
  · split <;> exact h

theorem TriggerUnit.InRange.unfreeze {u : TriggerUnit} (h : u.InRange) : u.unfreeze.InRange := by
  obtain ⟨hsta, hlta, hmin, hfrozen, -⟩ := h
  refine ⟨hsta, ?_, hmin, nofun, nofun⟩
  cases hf : u.frozenLta with
  | none => simpa [TriggerUnit.unfreeze, hf] using hlta
  | some x => simpa [TriggerUnit.unfreeze, hf] using hfrozen x hf

theorem Applied.inRange {u v : TriggerUnit} (h : Applied u v) (hu : u.InRange) : v.InRange := by
  unfold TriggerUnit.InRange
  rw [h.sta, h.lta, h.staMin, h.frozenLta, h.heldMin]
  exact hu

/-- What a move takes over as a minimum or freezes is an average or a minimum that stands in range. -/
theorem UnitMove.inRange {u v : TriggerUnit} (h : UnitMove u v) (hu : u.InRange) : v.InRange := by
  obtain ⟨hsta, hlta, hmin, hfrozen, hheld⟩ := id hu
  cases h with
  | stay => exact hu
  | gapRun => exact (applyStaged_applied _).inRange hu.unfreeze
  | warm => exact hu
  | idle => exact hu
  | cal => exact hu
  | trigger n => exact ⟨hsta, hlta, hmin, fun x hx => Option.some.inj hx ▸ hlta, hheld⟩
  | abandon w => exact (applyStaged_applied _).inRange hu.unfreeze
  | declare => exact ⟨hsta, hlta, hsta, hfrozen, nofun⟩
  | beginStack n => exact ⟨hsta, hlta, hmin, hfrozen, fun x hx => Option.some.inj hx ▸ hmin⟩
  | endStack => exact ⟨hsta, hlta, hmin, hfrozen, nofun⟩
  | declareStacked => exact ⟨hsta, hlta, hsta, hfrozen, nofun⟩
  | cooldown w => exact (applyStaged_applied _).inRange hu.unfreeze
  | accept g =>
    unfold TriggerUnit.accept
    split
    · exact hu
    · exact (applyProfile_applied u g).inRange hu

theorem TriggerUnit.InRange.start {u : TriggerUnit} (h : u.InRange) : u.start.InRange := by
  obtain ⟨-, -, hmin, -, hheld⟩ := h
  exact ⟨Nat.zero_le _, Nat.zero_le _, hmin, nofun, hheld⟩

/-! ### Every step -/

/-- R47, R49, R58: targets lie in the averages' ranges, and a slot is stored with v at most e. -/
theorem averagesKept_invariant : SignalInvariant State.AveragesKept where
  same h hs := by
    rw [State.averagesKept_iff, h.filters, h.units, h.cells]
    exact hs
  unit {s b u} hu := fun ⟨hfilters, hunits, hcells⟩ => by
    refine ⟨hfilters, fun c => ?_, hcells⟩
    rw [State.setUnit_units, Bands.get_set]
    split
    · exact hu.inRange (hunits b)
    · exact hunits c
  write k r s := fun ⟨hfilters, hunits, hcells⟩ => by
    refine ⟨filterStep_kept _ _ r hfilters, fun b => ?_, fun c hc => ?_⟩
    · obtain ⟨e, cal, gapRun, hunit⟩ := writeCore_units k r s b
      rw [hunit]
      exact (TriggerUnit.InRange.average (hunits b) e).tally cal gapRun
    · rcases mem_writeCell hc with rfl | hold
      · exact completeSlot_verticalBelow _ _ r _ _
      · exact hcells c hold
  start {s} _ := fun ⟨hfilters, hunits, hcells⟩ => by
    refine ⟨hfilters, fun b => ?_, hcells⟩
    rw [startCore_unit]
    exact TriggerUnit.InRange.start (hunits b)
  stop {s} _ := fun ⟨_, hunits, hcells⟩ => by
    refine ⟨reset_averagesKept.1, fun b => ?_, hcells⟩
    rw [stopCore_unit]
    exact (stop_applied _).inRange (hunits b)
  reset := reset_averagesKept

/-- Settles O12: the ranges are kept by what the signal path undergoes. -/
theorem averagesKeptByEveryStep : Obligations.AveragesKeptByEveryStep :=
  fun _ _ => averagesKept_invariant.keeps_step

end Sys2Proof.Machine
end

section
/-! START and STOP in both core states (R54, R85, R86, R116, R168, R169). -/

namespace Sys2Proof.Machine

/-- The response of the exchange and the CORE notices touch different fields of the ports. -/
theorem respond_startCore (p : Port) (clocks : Nat) (r : Response) (s : State) :
    respond p r (startCore (openTransaction p clocks s)) = startCore (s.answered p clocks r) := by
  cases p <;> rfl

theorem respond_stopCore (p : Port) (clocks : Nat) (r : Response) (s : State) :
    respond p r (stopCore (openTransaction p clocks s)) = stopCore (s.answered p clocks r) := by
  cases p <;> rfl

section
variable {s : State} {p : Port} {rest : List Bool}

/-- At an open port with nothing owed, START runs on the state with the old response shifted out. -/
theorem exec_start (hopen : s.PortsOpen) (howed : s.owed = Owed.nothing) :
    exec (.start p rest) s =
      .next (respond p (startBody (openTransaction p (8 + rest.length) s)).2
        (startBody (openTransaction p (8 + rest.length) s)).1) := by
  have hsettled : settleOwed (openTransaction p (8 + rest.length) s) = openTransaction p (8 + rest.length) s :=
    settleOwed_of_nothing howed
  show execStart p rest s = _
  rw [execStart, transact_of_open hopen, requestClocks, hsettled]

/-- So does STOP. -/
theorem exec_stop (hopen : s.PortsOpen) (howed : s.owed = Owed.nothing) :
    exec (.stop p rest) s =
      .next (respond p (stopBody (openTransaction p (8 + rest.length) s)).2
        (stopBody (openTransaction p (8 + rest.length) s)).1) := by
  have hsettled : settleOwed (openTransaction p (8 + rest.length) s) = openTransaction p (8 + rest.length) s :=
    settleOwed_of_nothing howed
  show execStop p rest s = _
  rw [execStop, transact_of_open hopen, requestClocks, hsettled]

theorem exec_start_of_running (hopen : s.PortsOpen) (howed : s.owed = Owed.nothing)
    (hcore : s.settings.core = .running) :
    exec (.start p rest) s = .next (s.answered p (8 + rest.length) .ok) := by
  have hbody : startBody (openTransaction p (8 + rest.length) s) = (openTransaction p (8 + rest.length) s, .ok) :=
    if_neg (hcore.trans_ne (by decide))
  rw [exec_start hopen howed, hbody, respond_openTransaction]

theorem exec_start_of_stopped (hopen : s.PortsOpen) (howed : s.owed = Owed.nothing)
    (hcore : s.settings.core = .stopped) :
    exec (.start p rest) s = .next (startCore (s.answered p (8 + rest.length) .ok)) := by
  have hbody : startBody (openTransaction p (8 + rest.length) s) =
      (startCore (openTransaction p (8 + rest.length) s), .ok) := if_pos hcore
  rw [exec_start hopen howed, hbody, respond_startCore]

theorem exec_stop_of_stopped (hopen : s.PortsOpen) (howed : s.owed = Owed.nothing)
    (hcore : s.settings.core = .stopped) :
    exec (.stop p rest) s = .next (s.answered p (8 + rest.length) .ok) := by
  have hbody : stopBody (openTransaction p (8 + rest.length) s) = (openTransaction p (8 + rest.length) s, .ok) :=
    if_neg (hcore.trans_ne (by decide))
  rw [exec_stop hopen howed, hbody, respond_openTransaction]

theorem exec_stop_of_running (hopen : s.PortsOpen) (howed : s.owed = Owed.nothing)
    (hcore : s.settings.core = .running) :
    exec (.stop p rest) s = .next (stopCore (s.answered p (8 + rest.length) .ok)) := by
  have hbody : stopBody (openTransaction p (8 + rest.length) s) =
      (stopCore (openTransaction p (8 + rest.length) s), .ok) := if_pos hcore
  rw [exec_stop hopen howed, hbody, respond_stopCore]

end

theorem stop_of_unstaged {u : TriggerUnit} (h : u.staged = none) : u.stop = { u with state := .off } := by
  unfold TriggerUnit.stop TriggerUnit.applyStaged
  dsimp only
  rw [h]

/-- The staged profile is applied at OFF, so the band does not restart (R82, R86). -/
theorem stop_of_staged {u : TriggerUnit} {g : Staged} (h : u.staged = some g) :
    u.stop = { u with state := .off, profile := g.profile, generation := g.generation, staged := none } := by
  unfold TriggerUnit.stop TriggerUnit.applyStaged
  dsimp only
  rw [h]
  rfl

/-- Settles O60: each request by the core state it finds. -/
theorem startAndStopSetTheCore : Obligations.StartAndStopSetTheCore := by
  intro s p rest answered hopen howed hanswered
  subst hanswered
  refine ⟨exec_start_of_running hopen howed, exec_stop_of_stopped hopen howed,
    fun hcore => ⟨_, exec_start_of_stopped hopen howed hcore, rfl, startCore_unit _⟩,
    fun hcore => ⟨_, exec_stop_of_running hopen howed hcore, rfl, fun b => ?_⟩⟩
  rw [stopCore_unit]
  exact ⟨stop_of_unstaged, fun g => stop_of_staged⟩

end Sys2Proof.Machine
end

section
/-! A unit's averages and counts at a slot write, state by state (R58, R59, R62, R64, R67, R69, R75). -/

namespace Sys2Proof.Machine

/-! ### The averages -/

/-- STA and LTA never fall below 0, so a step towards a target is the exact one (R58). -/
theorem averageStep_eq (k x : Nat) (e : Energy) :
    (averageStep k x e : Int) = x + (256 * (e.toNat : Int) - x) / 2 ^ k := by
  have hstep : approach k (x : Int) (256 * (e.toNat : Int)) = x + (256 * (e.toNat : Int) - x) / 2 ^ k := rfl
  have hpos : 0 ≤ approach k (x : Int) (256 * (e.toNat : Int)) :=
    (approach_mem (lo := 0) (hi := max (x : Int) (256 * (e.toNat : Int))) (by omega) (by omega)).1
  rw [averageStep, Int.toNat_of_nonneg hpos, hstep]

section
variable {u : TriggerUnit}

theorem average_of_off (h : u.state = .off) (e : Energy) : u.average e = u := if_pos h

theorem average_of_frozen (h : u.state.frozen = true) (e : Energy) :
    u.average e = { u with sta := averageStep u.profile.staShift u.sta e } := by
  have hon : u.state ≠ .off := fun hoff => absurd h (by rw [hoff]; decide)
  rw [TriggerUnit.average, if_neg hon, if_pos h]

theorem average_of_running (h : u.state = .warming ∨ u.state = .idle ∨ u.state = .cooldown) (e : Energy) :
    u.average e =
      { u with
        sta := averageStep u.profile.staShift u.sta e
        lta := averageStep u.profile.ltaShift u.lta e } := by
  have hon : u.state ≠ .off := fun hoff => by simp [hoff] at h
  have hfrozen : ¬ u.state.frozen = true := by
    rcases h with h | h | h
    all_goals rw [h]; decide
  rw [TriggerUnit.average, if_neg hon, if_neg hfrozen]

end

/-! ### The counts (R64, R67, R69, R75) -/

section
variable {u : TriggerUnit} (e : Energy) (cal gapRun : Bool)

theorem tick_of_off (h : u.state = .off) : u.tick e cal gapRun = u := by
  rw [TriggerUnit.tick, average_of_off h, TriggerUnit.tally, h]

theorem tick_of_idle (h : u.state = .idle) : u.tick e cal gapRun = u.average e := by
  rw [TriggerUnit.tick, TriggerUnit.tally, TriggerUnit.average_eq]
  dsimp only
  rw [h]

theorem tick_of_warming (h : u.state = .warming) :
    u.tick e cal gapRun =
      { u.average e with
        warmCount := if cal || gapRun then 0 else min (u.warmCount + 1) Config.countTop } := by
  rw [TriggerUnit.tick, TriggerUnit.tally, TriggerUnit.average_eq]
  dsimp only
  rw [h]

theorem tick_of_pending (h : u.state = .pending) :
    u.tick e cal gapRun = { u.average e with confirmCount := u.confirmCount + 1 } := by
  rw [TriggerUnit.tick, TriggerUnit.tally, TriggerUnit.average_eq]
  dsimp only
  rw [h]

theorem tick_of_declared (h : u.state = .declared) :
    u.tick e cal gapRun =
      { u.average e with
        staMin := min u.staMin (u.average e).sta
        stackCount := if u.tOn2.isSome then u.stackCount + 1 else u.stackCount } := by
  rw [TriggerUnit.tick, TriggerUnit.tally, TriggerUnit.average_eq]
  dsimp only
  rw [h]

theorem tick_of_cooldown (h : u.state = .cooldown) :
    u.tick e cal gapRun =
      if gapRun then u.average e
      else { u.average e with
        deadCount := min (u.deadCount + 1) Config.countTop
        rewarm := u.rewarm || cal } := by
  rw [TriggerUnit.tick, TriggerUnit.tally, TriggerUnit.average_eq]
  dsimp only
  rw [h]

theorem tick_sta : (u.tick e cal gapRun).sta = (u.average e).sta := by rw [TriggerUnit.tick_eq]

theorem tick_lta : (u.tick e cal gapRun).lta = (u.average e).lta := by rw [TriggerUnit.tick_eq]

theorem tick_state : (u.tick e cal gapRun).state = u.state := by rw [TriggerUnit.tick_eq]

end

/-- Settles O26: the averages' exact steps, and the counts state by state. -/
theorem unitsAverageAndCount : Obligations.UnitsAverageAndCount := by
  rintro u v e cal gapRun rfl
  refine ⟨fun h => tick_of_off _ _ _ h, fun h => ?_, fun h => ?_, fun h => ?_, fun h => ?_, fun h => ?_, fun h => ?_,
    fun h => ?_, fun h hgap => ?_, fun h hgap => ?_⟩
  · rw [tick_sta, TriggerUnit.average, if_neg h]
    exact averageStep_eq ..
  · rw [tick_lta, average_of_running h]
    exact averageStep_eq ..
  · rw [tick_lta, average_of_frozen (by rcases h with h | h <;> rw [h] <;> rfl)]
  · rw [tick_of_warming _ _ _ h, average_of_running (.inl h)]
    simp only [Bool.or_eq_true]
    rfl
  · rw [tick_of_idle _ _ _ h, average_of_running (.inr (.inl h))]
  · rw [tick_of_pending _ _ _ h, average_of_frozen (by rw [h]; rfl)]
  · rw [tick_of_declared _ _ _ h, average_of_frozen (by rw [h]; rfl)]
    cases u.tOn2 <;> rfl
  · rw [tick_of_cooldown _ _ _ h, average_of_running (.inr (.inr h)), if_pos hgap]
  · rw [tick_of_cooldown _ _ _ h, average_of_running (.inr (.inr h)), if_neg (by rw [hgap]; decide)]
    rfl

end Sys2Proof.Machine
end

section
/-! The fetch engines through every step (R184, R185): only a grant, FETCH, READ FETCH and PORT RESET reach them. -/

namespace Sys2Proof.Machine

/-! ### What leaves the engines alone -/

theorem State.EnginesKept.of_engines {s t : State} (hs : s.EnginesKept)
    (h : ∀ p, (t.ports.get p).engine = (s.ports.get p).engine) : t.EnginesKept := by
  intro p
  rw [h p]
  exact hs p

theorem Raised.engine {i j : PortInterface} (h : Raised i j) : j.engine = i.engine := by rw [h.1]

theorem OnlyStream.enginesKept {s t : State} (h : OnlyStream s t) (hs : s.EnginesKept) : t.EnginesKept :=
  hs.of_engines fun p => (h.ports p).engine

/-- Beside one port whose engine is kept, the other's is as it was. -/
theorem State.EnginesKept.setPort {s : State} (hs : s.EnginesKept) (p : Port) {i : PortInterface}
    (hi : i.engine.Kept) : (s.setPort p i).EnginesKept := by
  intro q
  rw [State.setPort_ports, Ports.get_set]
  split
  · exact hi
  · exact hs q

/-! ### A read granted, and slots returned (R184, R185) -/

theorem grantEngine_enginesKept (p : Port) {s : State} (hs : s.EnginesKept) : (grantEngine p s).EnginesKept := by
  cases hf : (s.ports.get p).engine with
  | idle | ready =>
    rw [grantEngine, hf]
    exact hs
  | filling f =>
    have hkept := hs p
    rw [hf] at hkept
    obtain ⟨hmax, hcount, hreturned⟩ := hkept
    have hlength : (f.afterRead s.ring).buffer.length = f.buffer.length + 1 := List.length_append
    rcases Nat.lt_or_eq_of_le (Nat.succ_le_of_lt hcount) with hmore | hlast
    · rw [grantEngine_of_more hf hmore]
      exact State.EnginesKept.setPort (s := { s with ring := _ }) hs p
        ⟨hmax, hlength ▸ hmore, hlength ▸ hreturned.trans (Nat.le_succ _)⟩
    · rw [grantEngine_of_last hf hlast]
      exact State.EnginesKept.setPort (s := { s with ring := _, clock := _ }) hs p
        ⟨hmax, hlength.trans hlast, Nat.lt_of_le_of_lt hreturned hcount⟩

theorem grantRead_enginesKept {s : State} (hs : s.EnginesKept) : (grantRead s).EnginesKept := by
  cases hg : s.grantee with
  | none =>
    rw [grantRead, hg]
    exact hs
  | some x =>
    cases x with
    | lane l =>
      rw [grantRead_of_lane hg]
      exact hs
    | engine p =>
      rw [grantRead_of_engine hg]
      exact grantEngine_enginesKept p hs

/-- No slot is returned that has not been read. -/
theorem nextSlots_length_le (f : Fetch) : (nextSlots f).length ≤ f.buffer.length - f.returned := by
  rw [nextSlots, List.length_take, List.length_drop]
  exact Nat.min_le_right _ _

theorem readFetchBody_enginesKept (p : Port) {s : State} (hs : s.EnginesKept) :
    (readFetchBody p s).1.EnginesKept := by
  have hkept := hs p
  unfold readFetchBody
  dsimp only
  split
  · exact hs
  · rename_i f hf
    rw [hf] at hkept
    obtain ⟨hmax, hcount, hreturned⟩ := hkept
    have hnext := nextSlots_length_le f
    split
    · exact hs
    · refine hs.setPort p ⟨hmax, hcount, ?_⟩
      show f.returned + (nextSlots f).length ≤ f.buffer.length
      omega
  · rename_i f hf
    rw [hf] at hkept
    obtain ⟨hmax, hcount, -⟩ := hkept
    split
    · exact hs.setPort p trivial
    · rename_i hmore
      exact hs.setPort p ⟨hmax, hcount, Nat.not_le.1 hmore⟩

/-- An accepted FETCH names at least one slot and at most 256 (R182, R183). -/
theorem fetchBody_enginesKept (p : Port) (start : Index) (count : Nat) (mask : Bands Bool) {s : State}
    (hs : s.EnginesKept) : (fetchBody p start count mask s).1.EnginesKept := by
  unfold fetchBody
  split
  · exact hs
  · rename_i hcount
    obtain ⟨hpos, hmax⟩ := not_or.1 hcount
    split
    · exact hs
    · split
      · split <;> exact hs
      · split
        · exact hs
        · exact hs.setPort p ⟨Nat.not_lt.1 hmax, Nat.pos_of_ne_zero hpos, Nat.le_refl 0⟩

/-! ### Every step -/

theorem requestBody_enginesKept {body : State → State × Response} (h : RequestBody body) {s : State}
    (hs : s.EnginesKept) : (body s).1.EnginesKept := by
  cases h with
  | answer r => exact hs
  | identify p =>
    unfold identifyBody
    dsimp only
    split
    · exact hs
    · exact hs.setPort p (hs p)
  | attach p fromNow => exact (attachReader_frame p fromNow s).enginesKept hs
  | detach p =>
    unfold detachBody
    split
    · exact (detachReader_frame p s).enginesKept hs
    · exact hs
  | take p =>
    unfold takeBody
    dsimp only
    split
    · exact hs
    · split
      · exact hs
      · split
        · exact hs
        · exact (deliver_frame p _ s).enginesKept hs
  | confirm p v =>
    unfold confirmBody
    dsimp only
    split
    · exact hs
    · split
      · exact hs
      · exact (confirmUpTo_frame p v s).enginesKept hs
  | rewind p =>
    unfold rewindBody
    dsimp only
    split
    · exact hs
    · split
      · exact hs
      · exact ((setReader_frame p _ s).trans (evaluateBacklog_frame p _)).enginesKept hs
  | fetch p start count mask => exact fetchBody_enginesKept p start count mask hs
  | readFetch p => exact readFetchBody_enginesKept p hs
  | getProfile b => cases b <;> exact hs
  | setPort p threshold mask =>
    exact ((setReader_frame p _ _).trans (evaluateBacklog_frame p _)).enginesKept (hs.setPort p (hs p))
  | portReset p =>
    have hcleared := ((detachReader_frame p s).enginesKept hs).setPort p
      (i := { (detachReader p s).ports.get p with notices := 0, mask := 255, engine := .idle }) trivial
    exact hcleared.of_engines fun _ => rfl

/-- R184, R185: the engines through each effect. -/
theorem Effect.enginesKept {s t : State} (h : Effect s t) (hs : s.EnginesKept) : t.EnginesKept := by
  cases h with
  | intake | time | settled | dequeue => exact hs
  | write k r => exact (completeOverdue_frame s).enginesKept hs
  | unit b => exact (unitFinish_frame b s).enginesKept hs
  | expiry => exact (expiryStep_frame _ s).enginesKept hs
  | scanStart => exact (scanStartStep_frame s.newestOr s).enginesKept hs
  | launch => exact (launchExamination_frame s).enginesKept hs
  | examination => exact (launchExamination_frame s).enginesKept hs
  | completion l => exact (completeLane_frame l s).enginesKept hs
  | retirement => exact ((takeUp_frame _ s).trans (retireRecords_frame _ _)).enginesKept hs
  | release => exact (releaseRecords_frame _ s).enginesKept hs
  | timing => exact (timingFinish_frame s).enginesKept hs
  | mark n => exact (latchMark_frame n s).enginesKept hs
  | intakeRecord x => exact (intakeRecord_frame x s).enginesKept hs
  | grant => exact grantRead_enginesKept hs
  | exchange p => exact hs.setPort p (hs p)
  | request body hbody => exact requestBody_enginesKept hbody hs
  | setProfile p b written =>
    cases b with
    | none => exact hs
    | some b => exact (raise_frame _ _ _).enginesKept (s := (countGeneration s).setUnit b _) hs
  | setStation p written => exact (raise_frame _ _ _).enginesKept (s := { s with settings := _ }) hs
  | start | stop => exact (raiseBoth_frame _ _).enginesKept hs
  | power level held q hidle =>
    intro p
    show (q.get p).engine.Kept
    rw [hidle p]
    trivial

theorem enginesKept_step {s t : State} (hs : s.EnginesKept) (ht : step s = .next t) : t.EnginesKept :=
  (step_effects ht).keeps Effect.enginesKept hs

end Sys2Proof.Machine
end

section
/-! What a step can do to the refiner and to what its requests rest on: the newest index, the units, the station
settings, the core and what is owed. A condition on these that each of a few operations keeps is kept by every step. -/

namespace Sys2Proof.Machine

/-! ### What leaves the requests in flight alone -/

/-- What the requests in flight and the confirmations rest on is the same in two states: of what is owed, whose
handlings the units owe and whether the expiries are still to come. -/
structure SameFlight (s t : State) : Prop where
  newest : t.ring.newest = s.ring.newest
  nextIndex : t.intake.nextIndex = s.intake.nextIndex
  units : t.units = s.units
  refiner : t.refiner = s.refiner
  station : t.settings.station = s.settings.station
  core : t.settings.core = s.settings.core
  owedUnits : t.owed.units = s.owed.units
  expiry : t.owed.refiner = .expiry ↔ s.owed.refiner = .expiry
  nothing : s.owed = Owed.nothing → t.owed = Owed.nothing

theorem SameFlight.refl (s : State) : SameFlight s s := ⟨rfl, rfl, rfl, rfl, rfl, rfl, rfl, .rfl, id⟩

theorem SameFlight.trans {s t u : State} (h : SameFlight s t) (g : SameFlight t u) : SameFlight s u :=
  ⟨g.newest.trans h.newest, g.nextIndex.trans h.nextIndex, g.units.trans h.units, g.refiner.trans h.refiner,
    g.station.trans h.station, g.core.trans h.core, g.owedUnits.trans h.owedUnits, g.expiry.trans h.expiry,
    fun ho => g.nothing (h.nothing ho)⟩

/-- Only the ring's counts, the list, the readers, the ports, the clock and other things no request rests on differ. -/
theorem SameFlight.of_owed {s t : State} (hnewest : t.ring.newest = s.ring.newest)
    (hindex : t.intake.nextIndex = s.intake.nextIndex) (hunits : t.units = s.units) (hrefiner : t.refiner = s.refiner)
    (hsettings : t.settings = s.settings) (howed : t.owed = s.owed) : SameFlight s t :=
  ⟨hnewest, hindex, hunits, hrefiner, by rw [hsettings], by rw [hsettings], by rw [howed], by rw [howed],
    fun h => howed.trans h⟩

theorem OnlyRecords.sameFlight {s t : State} (h : OnlyRecords s t) : SameFlight s t :=
  .of_owed (by rw [h.ring]) (by rw [h.intake]) h.units h.refiner h.settings h.owed

theorem setPort_sameFlight (p : Port) (i : PortInterface) (s : State) : SameFlight s (s.setPort p i) :=
  .of_owed rfl rfl rfl rfl rfl rfl

theorem setTmu_sameFlight (x : TimeMarkUnit) (s : State) : SameFlight s (s.setTmu x) :=
  .of_owed rfl rfl rfl rfl rfl rfl

/-- The refiner's later steps and the other blocks' handlings are no matter to the requests. -/
theorem setOwed_sameFlight {s : State} {o : Owed} (hunits : o.units = s.owed.units)
    (hexpiry : o.refiner = .expiry ↔ s.owed.refiner = .expiry) (hnothing : s.owed = Owed.nothing → o = Owed.nothing) :
    SameFlight s (s.setOwed o) := ⟨rfl, rfl, rfl, rfl, rfl, rfl, hunits, hexpiry, hnothing⟩

/-- A begun handling of the refiner goes on a step (R96). -/
theorem setOwed_later_sameFlight {s t : State} {x : RefinerStep} (howed : t.owed = s.owed)
    (hs : s.owed.refiner = .scanStart ∨ s.owed.refiner = .launch) (hx : x = .launch ∨ x = .done) :
    SameFlight t (t.setOwed { s.owed with refiner := x }) := by
  refine setOwed_sameFlight (by rw [howed]) ⟨fun he => ?_, fun he => ?_⟩ fun ho => ?_
  · rcases hx with hx | hx <;> cases hx.symm.trans he
  · rw [howed] at he
    rcases hs with hs | hs <;> cases hs.symm.trans he
  · rw [← howed, ho] at hs
    rcases hs with hs | hs <;> cases hs

theorem timingFinish_sameFlight (s : State) : SameFlight s (timingFinish s) := by
  have hchange : ∀ x c, SameFlight s (changeTiming x c s) := fun x c =>
    (setTmu_sameFlight _ s).trans (changeTiming_onlyRecords x c s).sameFlight
  have howed : ∀ t : State, SameFlight s t → SameFlight s (t.setOwed { s.owed with timing := false }) := fun t h =>
    ⟨h.newest, h.nextIndex, h.units, h.refiner, h.station, h.core, rfl, .rfl, fun ho => by rw [ho]; rfl⟩
  unfold timingFinish
  split
  · split
    · exact howed _ (hchange _ _)
    · split
      · exact howed _ (hchange _ _)
      · exact howed _ (.refl s)
  · exact .refl s

theorem latchMark_sameFlight (n : Newest) (s : State) : SameFlight s (latchMark n s) :=
  (setTmu_sameFlight _ s).trans (latchMark_onlyRecords n s).sameFlight

/-- The bodies of the requests that settle nothing leave the requests in flight alone. -/
theorem requestBody_sameFlight {body : State → State × Response} (h : RequestBody body) (s : State) :
    SameFlight s (body s).1 := by
  cases h with
  | answer r => exact .refl s
  | identify p =>
    unfold identifyBody
    dsimp only
    split
    · exact .refl s
    · exact setPort_sameFlight p _ s
  | attach p fromNow => exact (attachReader_frame p fromNow s).sameFlight
  | detach p =>
    unfold detachBody
    split
    · exact (detachReader_frame p s).sameFlight
    · exact .refl s
  | take p =>
    unfold takeBody
    dsimp only
    split
    · exact .refl s
    · split
      · exact .refl s
      · split
        · exact .refl s
        · exact (deliver_frame p _ s).sameFlight
  | confirm p v =>
    unfold confirmBody
    dsimp only
    split
    · exact .refl s
    · split
      · exact .refl s
      · exact (confirmUpTo_frame p v s).sameFlight
  | rewind p =>
    unfold rewindBody
    dsimp only
    split
    · exact .refl s
    · split
      · exact .refl s
      · exact ((setReader_frame p _ s).trans (evaluateBacklog_frame p _)).sameFlight
  | fetch p start count mask =>
    unfold fetchBody
    split
    · exact .refl s
    · split
      · exact .refl s
      · split
        · split <;> exact .refl s
        · split
          · exact .refl s
          · exact .of_owed rfl rfl rfl rfl rfl rfl
  | readFetch p =>
    unfold readFetchBody
    dsimp only
    split
    · exact .refl s
    · split
      · exact .refl s
      · exact setPort_sameFlight p _ s
    · split <;> exact setPort_sameFlight p _ s
  | getProfile b => cases b <;> exact .refl s
  | setPort p threshold mask =>
    exact (setPort_sameFlight p _ s).trans ((setReader_frame p _ _).trans (evaluateBacklog_frame p _)).sameFlight
  | portReset p => exact (detachReader_frame p s).sameFlight.trans (.of_owed rfl rfl rfl rfl rfl rfl)

theorem grantEngine_sameFlight (p : Port) (s : State) : SameFlight s (grantEngine p s) := by
  unfold grantEngine
  split
  · dsimp only
    split <;> exact .of_owed rfl rfl rfl rfl rfl rfl
  all_goals exact .refl s

/-! ### Settings as they are clamped (R157, R158, R162, R163) -/

theorem clamp_mem {lo hi : Nat} (h : lo ≤ hi) (v : Nat) : lo ≤ clamp lo hi v ∧ clamp lo hi v ≤ hi := by
  unfold clamp
  split_ifs <;> omega

/-- Each field of a clamped profile lies in its range, a dependent one in the range that the clamped field gives. -/
theorem clampProfile_legal (x : Profile) : (clampProfile x).Legal := by
  have hfast := clamp_mem (Nat.zero_le 6) x.fastShift
  have hsta := clamp_mem (show 1 ≤ 8 by decide) x.staShift
  have hon := clamp_mem (show 17 ≤ 255 by decide) x.on
  have hpost := clamp_mem (show 16 ≤ 256 by decide) x.post
  unfold Profile.Legal clampProfile
  dsimp only
  exact ⟨hfast.2, clamp_mem (by omega) _, hsta, clamp_mem (by omega) _, hon,
    clamp_mem (by omega) _, clamp_mem (by decide) _, clamp_mem (by decide) _, clamp_mem (by decide) _,
    (clamp_mem (Nat.zero_le _) _).2, clamp_mem (by decide) _, (clamp_mem (Nat.zero_le _) _).2,
    clamp_mem (by decide) _, hpost, (clamp_mem (Nat.zero_le _) _).2, clamp_mem (by omega) _, clamp_mem (by omega) _,
    clamp_mem (by decide) _, (clamp_mem (Nat.zero_le _) _).2⟩

theorem clampStation_legal (x : Station) : (clampStation x).Legal := by
  unfold Station.Legal clampStation
  exact ⟨clamp_mem (by decide) _, clamp_mem (by decide) _, clamp_mem (by decide) _, clamp_mem (by decide) _,
    clamp_mem (by decide) _, clamp_mem (by decide) _, (clamp_mem (Nat.zero_le _) _).2⟩

/-! ### The condition and what it survives -/

/-- A condition on the requests in flight and what they rest on that each of these operations keeps, on a state that
meets a condition `C` which every effect keeps anyway. -/
structure FlightInvariant (C P : State → Prop) : Prop where
  same : ∀ {s t : State}, SameFlight s t → P s → P t
  write : ∀ (k : SlotKind) (r : Reading) {s : State}, C s → s.owed = Owed.nothing → P s →
    P (writeCore k r (completeOverdue s))
  unit : ∀ (b : Band) {s : State}, C s → s.owed.units.get b = true → P s → P (unitFinish b s)
  expiry : ∀ {s : State}, s.owed.refiner = .expiry → P s →
    P ((expiryStep s.newestOr s).setOwed { s.owed with refiner := .scanStart })
  scanStart : ∀ {s : State}, P s → P (scanStartStep s.newestOr s)
  examination : ∀ {s : State}, C s → P s → P (launchExamination s)
  completion : ∀ (l : LaneId) {s : State}, C s → P s → P (completeLane l s)
  read : ∀ (l : LaneId) {s : State}, P s → P (grantLane l s)
  setProfile : ∀ (b : Band) {g : Staged} {s : State}, g.profile.Legal → P s →
    P (s.setUnit b ((s.units.get b).accept g))
  setStation : ∀ {x : Station} {s : State}, x.Legal →
    s.settings.core = .stopped ∨ x.holdback = s.settings.station.holdback → C s → P s →
    P { s with settings := { s.settings with station := x } }
  start : ∀ {s : State}, P s → P (startCore s)
  stop : ∀ {s : State}, P s → P (stopCore s)
  reset : P State.reset

section
variable {C P : State → Prop}

theorem FlightInvariant.keeps_grant (h : FlightInvariant C P) {s : State} (hs : P s) : P (grantRead s) := by
  cases hg : s.grantee with
  | none =>
    rw [grantRead, hg]
    exact hs
  | some x =>
    cases x with
    | lane l =>
      rw [grantRead_of_lane hg]
      exact h.same (s := grantLane l s) (.of_owed rfl rfl rfl rfl rfl rfl) (h.read l hs)
    | engine p =>
      rw [grantRead_of_engine hg]
      exact h.same ((grantEngine_sameFlight p s).trans (.of_owed rfl rfl rfl rfl rfl rfl)) hs

theorem FlightInvariant.keeps_setProfile (h : FlightInvariant C P) (p : Port) (b : Option Band) (written : Profile)
    {s : State} (hs : P s) : P (setProfileBody p b written s).1 := by
  cases b with
  | none => exact hs
  | some b =>
    refine h.same (raise_frame .settings p.other _).sameFlight ?_
    refine h.same (s := s.setUnit b ((s.units.get b).accept
      { profile := clampProfile written, generation := s.settings.generation + 1 }))
      ⟨rfl, rfl, rfl, rfl, rfl, rfl, rfl, .rfl, id⟩ (h.setProfile b (clampProfile_legal written) hs)

theorem FlightInvariant.keeps_setStation (h : FlightInvariant C P) (p : Port) (written : Station) {s : State}
    (hcore : s.settings.core = .stopped ∨ onlyDividerDiffers (clampStation written) s.settings.station) (hc : C s)
    (hs : P s) : P (s.acceptedStation p (clampStation written)) := by
  refine h.same (s := { s with settings := { s.settings with station := clampStation written } })
    ⟨rfl, rfl, rfl, rfl, rfl, rfl, rfl, .rfl, id⟩ (h.setStation (clampStation_legal written) ?_ hc hs)
  refine hcore.imp_right fun hdivider => ?_
  rw [(onlyDividerDiffers_iff _ _).1 hdivider]

/-- Effect by effect: the requests in flight are left alone, or undergo one of the operations. -/
theorem FlightInvariant.keeps_effect (h : FlightInvariant C P) {s t : State} (hst : Effect s t) (hc : C s) (hs : P s) :
    P t := by
  cases hst with
  | intake f hindex => exact h.same (s := s) (.of_owed rfl hindex rfl rfl rfl rfl) hs
  | time now => exact h.same (s := s) (.of_owed rfl rfl rfl rfl rfl rfl) hs
  | write k r howed => exact h.write k r hc howed hs
  | unit b hb => exact h.unit b hc hb hs
  | expiry howed => exact h.expiry howed hs
  | scanStart howed =>
    exact h.same (setOwed_later_sameFlight (scanStartStep_frame s.newestOr s).owed (by rw [howed]; decide) (by decide))
      (h.scanStart hs)
  | launch howed =>
    exact h.same (setOwed_later_sameFlight (launchExamination_frame s).owed (by rw [howed]; decide) (by decide))
      (h.examination hc hs)
  | examination => exact h.examination hc hs
  | completion l => exact h.completion l hc hs
  | retirement howed =>
    have hframe := (takeUp_frame s.newestOr s).trans (retireRecords_frame s.newestOr _)
    exact h.same (hframe.sameFlight.trans (setOwed_sameFlight (by rw [hframe.owed]) (by rw [hframe.owed])
      fun ho => by rw [hframe.owed] at ho; rw [ho] at howed; cases howed)) hs
  | release howed =>
    have hframe := releaseRecords_frame s.newestOr s
    exact h.same (hframe.sameFlight.trans (setOwed_sameFlight (by rw [hframe.owed]) (by rw [hframe.owed])
      fun ho => by rw [hframe.owed] at ho; rw [ho] at howed; cases howed)) hs
  | timing => exact h.same (timingFinish_sameFlight s) hs
  | mark n => exact h.same (latchMark_sameFlight n s) hs
  | intakeRecord x => exact h.same (intakeRecord_frame x s).sameFlight hs
  | settled howed =>
    exact h.same (setOwed_sameFlight (by rw [howed]) (by rw [howed]) fun _ => rfl) hs
  | grant => exact h.keeps_grant hs
  | exchange p => exact h.same (setPort_sameFlight p _ s) hs
  | request body hbody => exact h.same (requestBody_sameFlight hbody s) hs
  | setProfile p b written => exact h.keeps_setProfile p b written hs
  | setStation p written _ hcore => exact h.keeps_setStation p written hcore hc hs
  | start => exact h.start hs
  | stop => exact h.stop hs
  | power level held q =>
    exact h.same (s := State.reset) (.of_owed rfl rfl rfl rfl rfl rfl) h.reset
  | dequeue rest => exact h.same (s := s) (.of_owed rfl rfl rfl rfl rfl rfl) hs

/-- Kept beside a condition that every effect keeps. -/
theorem FlightInvariant.keeps_effects (h : FlightInvariant C P) (hC : ∀ {s t}, Effect s t → C s → C t) {s t : State}
    (hst : Effects s t) (hc : C s) (hs : P s) : C t ∧ P t :=
  hst.keeps (P := fun s => C s ∧ P s) (fun he hcs => ⟨hC he hcs.1, h.keeps_effect he hcs.1 hcs.2⟩) ⟨hc, hs⟩

end

end Sys2Proof.Machine
end

section
/-! What the refiner's operations do to its queue and lanes, said once (R89, R92 to R96, R101 to R104), and the lanes
and the queue kept by every step (R89, R94, R95). -/

namespace Sys2Proof.Machine

/-! ### Launches -/

theorem Refiner.free_of_freeLane {rf : Refiner} {l : LaneId} (h : rf.freeLane = some l) : rf.lanes.get l = .free := by
  unfold Refiner.freeLane at h
  exact of_decide_eq_true (List.find?_some (p := fun l => decide (rf.lanes.get l = .free)) h)

/-- A condition on the refiner that a launch at newest index `n` keeps (R92). -/
def LaunchKeeps (n : Index) (R : Refiner → Prop) : Prop :=
  ∀ (rf : Refiner) (head : Request) (more : List Request) (l : LaneId) (history : List Index),
    rf.queue = head :: more → rf.lanes.get l = .free → R rf →
      R { queue := more, lanes := rf.lanes.set l (launchedLane head n), history := history }

section
variable {n : Index} {R S : Refiner → Prop}

theorem LaunchKeeps.and (h : LaunchKeeps n R) (g : LaunchKeeps n S) : LaunchKeeps n fun rf => R rf ∧ S rf :=
  fun _ _ _ _ history hq hl hrf => ⟨h _ _ _ _ history hq hl hrf.1, g _ _ _ _ history hq hl hrf.2⟩

theorem LaunchKeeps.keeps_loop {s : State} (h : LaunchKeeps s.newestOr R) (fuel : Nat) (hs : R s.refiner) :
    R (launchLoop fuel s).refiner := by
  induction fuel generalizing s with
  | zero => exact hs
  | succ fuel ih =>
    unfold launchLoop
    split
    · rename_i head more l i hq hl hi
      split
      · refine ih h ?_
        rw [← newestOr_of_newestIndex hi]
        exact h _ _ _ _ _ hq (Refiner.free_of_freeLane hl) hs
      · exact hs
    · exact hs

theorem LaunchKeeps.keeps_examination {s : State} (h : LaunchKeeps s.newestOr R) (hs : R s.refiner) :
    R (launchExamination s).refiner := by
  unfold launchExamination
  split
  · exact h.keeps_loop _ hs
  · exact hs

/-- A request offered is queued and the head may be launched, or it is shed (R89, R90). -/
theorem LaunchKeeps.keeps_offer {s : State} (h : LaunchKeeps s.newestOr R) (r : Request)
    (hqueued : s.refiner.queue.length < Config.queueDepth →
      R { s.refiner with queue := enqueue r s.refiner.queue }) (hs : R s.refiner) :
    R (offerRequest r s).refiner := by
  unfold offerRequest
  split
  · rename_i hroom
    exact h.keeps_examination (s := s.setQueue (enqueue r s.refiner.queue)) (hqueued hroom)
  · rw [(handCoarse_frame true r s).refiner]
    exact hs

/-- A completion frees the lane that resolves, and the head may be launched (R95). -/
theorem LaunchKeeps.keeps_completion_of_resolving {s : State} (h : LaunchKeeps s.newestOr R) {l : LaneId} {r : Request}
    {w : List WindowSlot} {k : Nat} (hl : s.refiner.lanes.get l = .resolving r w k)
    (hfree : R { s.refiner with lanes := s.refiner.lanes.set l .free }) : R (completeLane l s).refiner := by
  unfold completeLane
  rw [hl]
  have hframe := insertRecord_frame (refinedKey r w) (.onset (refinedPart r w)) (s.setLane l .free)
  refine LaunchKeeps.keeps_examination (s := insertRecord _ _ _) ?_ ?_
  · rw [State.newestOr, hframe.ring]
    exact h
  · rw [hframe.refiner]
    exact hfree

theorem LaunchKeeps.keeps_completion {s : State} (h : LaunchKeeps s.newestOr R) (l : LaneId) (hs : R s.refiner)
    (hfree : R { s.refiner with lanes := s.refiner.lanes.set l .free }) : R (completeLane l s).refiner := by
  cases hl : s.refiner.lanes.get l with
  | resolving r w k => exact h.keeps_completion_of_resolving hl hfree
  | free | waiting | scanning =>
    unfold completeLane
    rw [hl]
    exact hs

end

/-! ### A condition on every request queued and on every lane -/

/-- Every queued request meets the one condition and every lane the other. -/
def Refiner.All (Q : Request → Prop) (L : Lane → Prop) (rf : Refiner) : Prop :=
  (∀ r ∈ rf.queue, Q r) ∧ ∀ l, L (rf.lanes.get l)

theorem mem_enqueue {r x : Request} {q : List Request} : x ∈ enqueue r q ↔ x = r ∨ x ∈ q := by
  induction q with
  | nil => simp [enqueue]
  | cons y ys ih =>
    rw [enqueue]
    split
    · simp
    · rw [List.mem_cons, ih, List.mem_cons]
      tauto

theorem length_enqueue (r : Request) (q : List Request) : (enqueue r q).length = q.length + 1 := by
  induction q with
  | nil => rfl
  | cons y ys ih =>
    rw [enqueue]
    split
    · rfl
    · rw [List.length_cons, ih, List.length_cons]

section
variable {Q Q' : Request → Prop} {L L' : Lane → Prop} {rf : Refiner} {n : Index}

theorem Refiner.All.imp (h : rf.All Q L) (hq : ∀ r, Q r → Q' r) (hl : ∀ x, L x → L' x) : rf.All Q' L' :=
  ⟨fun r hr => hq r (h.1 r hr), fun l => hl _ (h.2 l)⟩

theorem Refiner.All.set (h : rf.All Q L) (l : LaneId) {x : Lane} (hx : L x) :
    Refiner.All Q L { rf with lanes := rf.lanes.set l x } := by
  refine ⟨h.1, fun m => ?_⟩
  rw [Lanes.get_set]
  split
  · exact hx
  · exact h.2 m

theorem Refiner.All.enqueue (h : rf.All Q L) {r : Request} (hr : Q r) :
    Refiner.All Q L { rf with queue := enqueue r rf.queue } := by
  refine ⟨fun x hx => ?_, h.2⟩
  rcases mem_enqueue.1 hx with rfl | hx
  · exact hr
  · exact h.1 x hx

/-- A launch keeps such a condition where a launched request comes under the lanes' condition. -/
theorem launchKeeps_all (h : ∀ r, Q r → L (launchedLane r n)) : LaunchKeeps n (Refiner.All Q L) := by
  intro rf head more l history hq _ hall
  obtain ⟨hhead, hmore⟩ := List.forall_mem_cons.1 (hq ▸ hall.1)
  exact Refiner.All.set (rf := { queue := more, lanes := rf.lanes, history := history }) ⟨hmore, hall.2⟩ l
    (h head hhead)

end

/-! ### Expiry, scan start, truncation, read and count -/

theorem expireLane_lanes (n : Index) (l m : LaneId) (s : State) :
    (expireLane n l s).refiner.lanes.get m =
      if m = l ∧ (s.refiner.lanes.get m).expiryDue n = true then .free else s.refiner.lanes.get m := by
  cases hdue : (s.refiner.lanes.get l).expiryDue n with
  | false =>
    rw [expireLane_of_not_due hdue, if_neg]
    rintro ⟨rfl, hm⟩
    exact absurd hdue (ne_of_eq_of_ne hm (by decide))
  | true =>
    have hlanes : (expireLane n l s).refiner.lanes = s.refiner.lanes.set l .free := by
      obtain ⟨r, hr, hn⟩ := Lane.expiryDue_iff.1 hdue
      unfold expireLane
      rw [hr]
      dsimp only
      rw [if_pos (show expiresAt n r = true from decide_eq_true hn), (handCoarse_frame _ _ _).refiner]
      rfl
    rw [hlanes, Lanes.get_set]
    by_cases hm : m = l
    · subst hm
      rw [if_pos rfl, if_pos ⟨rfl, hdue⟩]
    · rw [if_neg hm, if_neg fun h => hm h.1]

theorem expireLane_queue (n : Index) (l : LaneId) (s : State) :
    (expireLane n l s).refiner.queue = s.refiner.queue := by
  unfold expireLane
  split
  · split
    · rw [(handCoarse_frame _ _ _).refiner]
      rfl
    · rfl
  · rfl

theorem expireQueue_refiner (n : Index) (s : State) :
    (expireQueue n s).refiner = { s.refiner with queue := s.refiner.queue.filter fun r => !expiresAt n r } :=
  (OnlyRecords.foldl _ (fun t r => handCoarse_frame false r t) _ _).refiner

/-- The requests whose deadline is the index written are gone, and no others (R96 to R98). -/
theorem expiryStep_queue (n : Index) (s : State) :
    (expiryStep n s).refiner.queue = s.refiner.queue.filter fun r => !expiresAt n r := by
  rw [expiryStep, expireQueue_refiner]
  simp only [expireLane_queue]

theorem expiryStep_lanes (n : Index) (l : LaneId) (s : State) :
    (expiryStep n s).refiner.lanes.get l =
      if (s.refiner.lanes.get l).expiryDue n = true then .free else s.refiner.lanes.get l := by
  rw [expiryStep, expireQueue_refiner]
  cases l <;> simp [expireLane_lanes]

theorem scanStartStep_lanes (n : Index) (l : LaneId) (s : State) :
    (scanStartStep n s).refiner.lanes.get l = (s.refiner.lanes.get l).startScan n := by cases l <;> rfl

theorem truncateBand_lanes (b : Band) (t2 : Index) (l : LaneId) (s : State) :
    (truncateBand b t2 s).refiner.lanes.get l = (s.refiner.lanes.get l).truncate b t2 := by cases l <;> rfl

theorem writeCore_lanes (k : SlotKind) (r : Reading) (l : LaneId) (s : State) :
    (writeCore k r s).refiner.lanes.get l = (s.refiner.lanes.get l).countWrite := by cases l <;> rfl

section
variable {Q Q' : Request → Prop} {L L' : Lane → Prop} {s : State}

theorem Refiner.All.expiryStep {n : Index} (h : s.refiner.All Q L) (hq : ∀ r, Q r → r.deadline ≠ n → Q' r)
    (hl : ∀ x, L x → x.expiryDue n = false → L' x) (hfree : L' .free) :
    (expiryStep n s).refiner.All Q' L' := by
  refine ⟨fun r hr => ?_, fun l => ?_⟩
  · rw [expiryStep_queue, List.mem_filter] at hr
    exact hq r (h.1 r hr.1) (by simpa [expiresAt] using hr.2)
  · rw [expiryStep_lanes]
    split
    · exact hfree
    · rename_i hdue
      exact hl _ (h.2 l) (Bool.eq_false_iff.2 hdue)

theorem Refiner.All.scanStartStep {n : Index} (h : s.refiner.All Q L) (hl : ∀ x, L x → L (x.startScan n)) :
    (scanStartStep n s).refiner.All Q L :=
  ⟨h.1, fun l => (scanStartStep_lanes n l s).symm ▸ hl _ (h.2 l)⟩

theorem Refiner.All.truncateBand {b : Band} {t2 : Index} (h : s.refiner.All Q L)
    (hq : ∀ r, Q r → Q' (r.truncate b t2)) (hl : ∀ x, L x → L' (x.truncate b t2)) :
    (truncateBand b t2 s).refiner.All Q' L' := by
  refine ⟨fun r hr => ?_, fun l => (truncateBand_lanes b t2 l s).symm ▸ hl _ (h.2 l)⟩
  obtain ⟨x, hx, rfl⟩ := List.mem_map.1 hr
  exact hq x (h.1 x hx)

theorem Refiner.All.writeCore {k : SlotKind} {r : Reading} (h : s.refiner.All Q L) (hq : ∀ x, Q x → Q' x)
    (hl : ∀ x, L x → L' x.countWrite) : (writeCore k r s).refiner.All Q' L' :=
  ⟨fun x hx => hq x (h.1 x hx), fun l => (writeCore_lanes k r l s).symm ▸ hl _ (h.2 l)⟩

theorem Refiner.All.grantLane {l : LaneId} (h : s.refiner.All Q L) (hl : ∀ x, L x → L (x.afterRead s.ring)) :
    (grantLane l s).refiner.All Q L := Refiner.All.set h l (hl _ (h.2 l))

theorem Refiner.Empty.all {rf : Refiner} (hempty : rf.Empty) (hfree : L .free) : rf.All Q L :=
  ⟨fun r hr => absurd (hempty.1 ▸ hr) List.not_mem_nil, fun l => by rw [hempty.2, Lanes.get_all]; exact hfree⟩

end

/-! ### Overdue resolutions (R95) -/

/-- A lane that has counted four slot writes since its resolution began. -/
def Lane.Overdue (x : Lane) : Prop := ∃ r w k, x = .resolving r w k ∧ Config.resolutionWrites ≤ k

theorem not_overdue_launchedLane (r : Request) (n : Index) : ¬ (launchedLane r n).Overdue := by
  unfold launchedLane
  rintro ⟨_, _, _, h, -⟩
  split at h <;> cases h

section
variable {R : Refiner → Prop} {s : State}

theorem completeOverdueLane_newestOr (l : LaneId) (s : State) : (completeOverdueLane l s).newestOr = s.newestOr := by
  rw [State.newestOr, (completeOverdueLane_frame l s).ring]
  rfl

/-- A completion of an overdue lane leaves the lane not overdue, and the others as they were. -/
theorem LaunchKeeps.keeps_overdueLane (h : LaunchKeeps s.newestOr R)
    (hfree : ∀ {rf : Refiner} (l), R rf → R { rf with lanes := rf.lanes.set l .free }) (l : LaneId)
    {D : LaneId → Prop} (hs : R s.refiner ∧ ∀ m, D m → ¬ (s.refiner.lanes.get m).Overdue) :
    R (completeOverdueLane l s).refiner ∧
      ∀ m, D m ∨ m = l → ¬ ((completeOverdueLane l s).refiner.lanes.get m).Overdue := by
  have hlaunch : LaunchKeeps s.newestOr fun rf => R rf ∧ ∀ m, D m ∨ m = l → ¬ (rf.lanes.get m).Overdue := by
    refine h.and fun rf head more k _ _ _ hrf m hm => ?_
    dsimp only
    rw [Lanes.get_set]
    split
    · exact not_overdue_launchedLane _ _
    · exact hrf m hm
  by_cases hdue : (s.refiner.lanes.get l).Overdue
  · obtain ⟨r, w, k, hlane, hk⟩ := hdue
    rw [completeOverdueLane_of_due hlane hk]
    have hset : ∀ m, D m ∨ m = l → ¬ ((s.refiner.lanes.set l .free).get m).Overdue := by
      intro m hm
      rw [Lanes.get_set]
      split
      · rintro ⟨_, _, _, hx, -⟩
        cases hx
      · rename_i hne
        exact hs.2 m (hm.resolve_right hne)
    exact hlaunch.keeps_completion_of_resolving hlane ⟨hfree l hs.1, hset⟩
  · rw [completeOverdueLane_of_not_due fun q w k hlane => Nat.lt_of_not_le fun hk => hdue ⟨q, w, k, hlane, hk⟩]
    refine ⟨hs.1, fun m hm => ?_⟩
    rcases hm with hm | rfl
    · exact hs.2 m hm
    · exact hdue

/-- Once the overdue resolutions are complete, no lane is overdue. -/
theorem LaunchKeeps.keeps_overdue (h : LaunchKeeps s.newestOr R)
    (hfree : ∀ {rf : Refiner} (l), R rf → R { rf with lanes := rf.lanes.set l .free }) (hs : R s.refiner) :
    R (completeOverdue s).refiner ∧ ∀ l, ¬ ((completeOverdue s).refiner.lanes.get l).Overdue := by
  have h0 := h.keeps_overdueLane hfree .l0 (D := fun _ => False) ⟨hs, fun _ hm => hm.elim⟩
  have h1 := LaunchKeeps.keeps_overdueLane (by simp only [completeOverdueLane_newestOr]; exact h) hfree .l1 h0
  have h2 := LaunchKeeps.keeps_overdueLane (by simp only [completeOverdueLane_newestOr]; exact h) hfree .l2 h1
  have h3 := LaunchKeeps.keeps_overdueLane (by simp only [completeOverdueLane_newestOr]; exact h) hfree .l3 h2
  exact ⟨h3.1, fun l => h3.2 l (by cases l <;> simp)⟩

end

end Sys2Proof.Machine
end

section
/-! The lanes and the launch queue through every step (R89, R94, R95). -/

namespace Sys2Proof.Machine

/-- The lanes are kept and the queue holds at most six requests: `State.RefinerKept`, said of the refiner. -/
def Refiner.Kept (rf : Refiner) : Prop :=
  rf.All (fun _ => True) Lane.Kept ∧ rf.queue.length ≤ Config.queueDepth

theorem State.refinerKept_iff (s : State) : s.RefinerKept ↔ s.refiner.Kept :=
  ⟨fun h => ⟨⟨fun _ _ => trivial, h.1⟩, h.2⟩, fun h => ⟨h.1.2, h.2⟩⟩

theorem Request.length_pos (r : Request) : 0 < r.length := Nat.succ_pos _

theorem kept_launchedLane (r : Request) (n : Index) : (launchedLane r n).Kept := by
  unfold launchedLane
  split
  · trivial
  · exact r.length_pos

theorem launchKeeps_kept (n : Index) : LaunchKeeps n Refiner.Kept := by
  refine (launchKeeps_all fun r _ => kept_launchedLane r n).and fun rf head more l _ hq _ hlength => ?_
  rw [hq] at hlength
  exact Nat.le_of_succ_le hlength

theorem Refiner.Kept.free {rf : Refiner} (h : rf.Kept) (l : LaneId) :
    Refiner.Kept { rf with lanes := rf.lanes.set l .free } := ⟨h.1.set l trivial, h.2⟩

/-- A truncation cuts a scanning lane's stored window where it has become whole (R104). -/
theorem Lane.Kept.truncate {x : Lane} (h : x.Kept) (b : Band) (t2 : Index) : (x.truncate b t2).Kept := by
  cases x with
  | free | resolving => exact h
  | waiting r =>
    unfold Lane.truncate
    dsimp only
    split
    · exact (r.cut t2).length_pos
    · trivial
  | scanning r w =>
    unfold Lane.truncate
    dsimp only
    split
    · split
      · rename_i hwhole
        exact ⟨List.length_take_of_le hwhole, Nat.zero_le _⟩
      · rename_i hshort
        exact Nat.lt_of_not_le hshort
    · exact h

theorem Lane.Kept.startScan {x : Lane} (h : x.Kept) (n : Index) : (x.startScan n).Kept := by
  cases x with
  | free | scanning | resolving => exact h
  | waiting r =>
    unfold Lane.startScan
    dsimp only
    split
    · exact r.length_pos
    · trivial

theorem Lane.Kept.countWrite {x : Lane} (h : x.Kept) (hdue : ¬ x.Overdue) : x.countWrite.Kept := by
  cases x with
  | free | waiting | scanning => exact h
  | resolving r w k => exact ⟨h.1, Nat.lt_of_not_le fun hk => hdue ⟨r, w, k, rfl, hk⟩⟩

theorem Lane.Kept.afterRead {x : Lane} (h : x.Kept) (g : Ring) : (x.afterRead g).Kept := by
  cases x with
  | free | waiting | resolving => exact h
  | scanning r w =>
    have hshort : w.length < r.length := h
    have hlength : (w ++ [windowSlot r.band (g.read (addSlots r.ws w.length))]).length = w.length + 1 :=
      List.length_append
    unfold Lane.afterRead
    dsimp only
    rw [hlength]
    split
    · rename_i hwhole
      exact ⟨hlength.trans (Nat.le_antisymm hshort hwhole), Nat.zero_le _⟩
    · rename_i hmore
      exact hlength.trans_lt (Nat.lt_of_not_le hmore)

theorem offerRequest_kept (r : Request) {s : State} (h : s.refiner.Kept) : (offerRequest r s).refiner.Kept :=
  (launchKeeps_kept _).keeps_offer r
    (fun hroom => ⟨h.1.enqueue trivial, (length_enqueue r _).symm ▸ Nat.succ_le_of_lt hroom⟩) h

theorem truncateBand_kept (b : Band) (t2 : Index) {s : State} (h : s.refiner.Kept) :
    (truncateBand b t2 s).refiner.Kept :=
  ⟨h.1.truncateBand (fun _ _ => trivial) fun _ hx => hx.truncate b t2, (List.length_map _).symm ▸ h.2⟩

/-- A unit reaches the refiner by a request it hands over and by a truncation, and by nothing else (R79, R80). -/
theorem unitAct_kept (d : UnitDue) (b : Band) {s : State} (h : s.refiner.Kept) : (unitAct d b s).refiner.Kept := by
  have hclose : ∀ u c v, (handClose b u c (s.setUnit b v)).refiner.Kept := fun u c v =>
    (handClose_frame b u c _).refiner.symm ▸ h
  cases d with
  | nothing | warm | calIdle | rewarm | trigger | calPending | stackBegin | dead => exact h
  | calDeclared | fell | maxDur => exact hclose _ _ _
  | gapRun =>
    simp only [unitAct, unitGapRun]
    split
    · exact h
    · exact hclose _ _ _
    all_goals exact h
  | primary =>
    simp only [unitAct, unitPrimary]
    split
    · exact offerRequest_kept _ h
    · exact h
  | stacked =>
    simp only [unitAct, unitStacked]
    split
    · exact offerRequest_kept _ (truncateBand_kept b _ (s := s.setUnit b _) h)
    · exact h

theorem startCore_refiner (s : State) : (startCore s).refiner = s.refiner := rfl

/-- STOP empties the queue and frees the lanes (R116). -/
theorem stopCore_empty (s : State) : (stopCore s).refiner.Empty := ⟨rfl, rfl⟩

theorem refinerKept_invariant : FlightInvariant (fun _ => True) State.RefinerKept where
  same hst h := by
    rw [State.refinerKept_iff] at h ⊢
    rwa [hst.refiner]
  write k r s _ _ h := by
    obtain ⟨hkept, hdue⟩ := (launchKeeps_kept _).keeps_overdue (fun l h => h.free l) ((State.refinerKept_iff s).1 h)
    exact ⟨fun l => writeCore_lanes k r l _ ▸ (hkept.1.2 l).countWrite (hdue l), hkept.2⟩
  unit b s _ howed h := by
    unfold unitFinish
    rw [if_pos howed]
    exact (State.refinerKept_iff _).2 (unitAct_kept _ b ((State.refinerKept_iff s).1 h))
  expiry _ h := by
    have hkept := (State.refinerKept_iff _).1 h
    refine (State.refinerKept_iff _).2 ⟨hkept.1.expiryStep (fun _ _ _ => trivial) (fun _ hx _ => hx) trivial, ?_⟩
    rw [State.setOwed_refiner, expiryStep_queue]
    exact (List.length_filter_le _ _).trans hkept.2
  scanStart h := by
    have hkept := (State.refinerKept_iff _).1 h
    exact (State.refinerKept_iff _).2 ⟨hkept.1.scanStartStep fun _ hx => hx.startScan _, hkept.2⟩
  examination _ h :=
    (State.refinerKept_iff _).2 ((launchKeeps_kept _).keeps_examination ((State.refinerKept_iff _).1 h))
  completion l s _ h := by
    have hkept := (State.refinerKept_iff _).1 h
    exact (State.refinerKept_iff _).2 ((launchKeeps_kept _).keeps_completion l hkept (hkept.free l))
  read l s h := by
    have hkept := (State.refinerKept_iff _).1 h
    exact (State.refinerKept_iff _).2 ⟨hkept.1.grantLane fun _ hx => hx.afterRead _, hkept.2⟩
  setProfile _ _ _ _ h := h
  setStation _ _ _ h := h
  start h := by
    rw [State.refinerKept_iff, startCore_refiner]
    exact (State.refinerKept_iff _).1 h
  stop {s} _ := by
    have hempty := stopCore_empty s
    exact (State.refinerKept_iff _).2 ⟨hempty.all trivial, hempty.1 ▸ Nat.zero_le _⟩
  reset := reset_refinerKept

theorem refinerKept_step {s t : State} (h : s.RefinerKept) (ht : step s = .next t) : t.RefinerKept :=
  (refinerKept_invariant.keeps_effects (fun _ _ => trivial) (step_effects ht) trivial h).2

end Sys2Proof.Machine
end

section
/-! What a unit becomes by its due case, said once; and the bounds that requests and confirmations rest on, kept by
every effect: settings in their ranges, and the next index one past the newest (R13, R157, R158, R162). -/

namespace Sys2Proof.Machine

/-! ### A unit by its due case (R63 to R75) -/

/-- What a unit becomes at the slot write of `n` by what its due case says. -/
def TriggerUnit.moved (u : TriggerUnit) (n : Index) : UnitDue → TriggerUnit
  | .nothing => u
  | .gapRun => u.gapRestart
  | .warm => { u with state := .idle }
  | .calIdle => { u with rewarm := true }
  | .rewarm => u.enterWarming
  | .trigger => u.trigger n
  | .calPending => u.abandon true
  | .primary => if u.onTest then u.declare else u.abandon u.rewarm
  | .calDeclared => (u.toCooldown true).applyStaged
  | .fell | .maxDur => (u.toCooldown false).applyStaged
  | .stacked => if u.stackedTest u.confirmMin then u.declareStacked else u.endStack
  | .stackBegin => u.beginStack n
  | .dead => if u.rewarm then u.enterWarming else { u with state := .idle }

theorem unitEnd_units (b : Band) (c : CloseCause) (w : Bool) (s : State) :
    (unitEnd b c w s).units = s.units.set b ((s.units.get b).toCooldown w).applyStaged :=
  (handClose_frame b _ c _).units

/-- The unit of the band alone moves. -/
theorem unitAct_units (d : UnitDue) (b : Band) (s : State) :
    (unitAct d b s).units = s.units.set b ((s.units.get b).moved s.newestOr d) := by
  cases d with
  | nothing => exact (Bands.set_get _ _).symm
  | warm | calIdle | rewarm | trigger | calPending | stackBegin | dead => rfl
  | calDeclared | fell | maxDur => exact unitEnd_units b _ _ s
  | gapRun =>
    simp only [unitAct, unitGapRun, TriggerUnit.moved, TriggerUnit.gapRestart]
    cases (s.units.get b).state with
    | off => exact (Bands.set_get _ _).symm
    | declared => exact (handClose_frame b _ _ _).units
    | pending | warming | idle | cooldown => rfl
  | primary =>
    simp only [unitAct, unitPrimary, TriggerUnit.moved]
    split
    · exact (offerRequest_frame _ _).units
    · rfl
  | stacked =>
    simp only [unitAct, unitStacked, TriggerUnit.moved]
    split
    · exact (offerRequest_frame _ _).units
    · rfl

theorem unitFinish_units {b : Band} {s : State} (h : s.owed.units.get b = true) :
    (unitFinish b s).units = s.units.set b ((s.units.get b).moved s.newestOr (s.unitDue b)) := by
  unfold unitFinish
  rw [if_pos h]
  exact unitAct_units _ b s

theorem unitFinish_refiner {b : Band} {s : State} (h : s.owed.units.get b = true) :
    (unitFinish b s).refiner = (unitAct (s.unitDue b) b s).refiner := by
  unfold unitFinish
  rw [if_pos h]
  rfl

/-! ### Profiles in their ranges (R157, R158) -/

/-- The profile in force and a staged one lie in their ranges. -/
structure TriggerUnit.Ranged (u : TriggerUnit) : Prop where
  profile : u.profile.Legal
  staged : ∀ g, u.staged = some g → g.profile.Legal

section
variable {u : TriggerUnit}

/-- What changes neither profile keeps them in their ranges. -/
theorem TriggerUnit.Ranged.of_same {v : TriggerUnit} (h : u.Ranged) (hprofile : v.profile = u.profile)
    (hstaged : v.staged = u.staged) : v.Ranged := ⟨hprofile ▸ h.profile, fun g hg => h.staged g (hstaged ▸ hg)⟩

theorem TriggerUnit.ranged_applyProfile (u : TriggerUnit) {g : Staged} (hg : g.profile.Legal) :
    (u.applyProfile g).Ranged := by
  have hprofile : (u.applyProfile g).profile = g.profile := by
    unfold TriggerUnit.applyProfile
    dsimp only
    split <;> rfl
  refine ⟨hprofile ▸ hg, fun x hx => ?_⟩
  rw [(applyProfile_applied u g).staged] at hx
  cases hx

theorem TriggerUnit.Ranged.applyStaged (h : u.Ranged) : u.applyStaged.Ranged := by
  unfold TriggerUnit.applyStaged
  split
  · exact h
  · rename_i g hg
    exact u.ranged_applyProfile (h.staged g hg)

theorem TriggerUnit.Ranged.accept (h : u.Ranged) {g : Staged} (hg : g.profile.Legal) : (u.accept g).Ranged := by
  unfold TriggerUnit.accept
  split
  · exact ⟨h.profile, fun x hx => by cases hx; exact hg⟩
  · exact u.ranged_applyProfile hg

theorem TriggerUnit.Ranged.gapRestart (h : u.Ranged) : u.gapRestart.Ranged := by
  unfold TriggerUnit.gapRestart
  split
  · exact h
  · exact (h.of_same (v := u.unfreeze.enterWarming) rfl rfl).applyStaged
  · exact (h.of_same (v := u.unfreeze.enterWarming) rfl rfl).applyStaged
  all_goals exact h.of_same rfl rfl

theorem TriggerUnit.Ranged.moved (h : u.Ranged) (n : Index) (d : UnitDue) : (u.moved n d).Ranged := by
  have habandon (w : Bool) : (u.abandon w).Ranged :=
    (h.of_same (v := { u.unfreeze with state := .idle, rewarm := w }) rfl rfl).applyStaged
  have hcooldown (w : Bool) : (u.toCooldown w).applyStaged.Ranged :=
    (h.of_same (v := u.toCooldown w) rfl rfl).applyStaged
  cases d with
  | nothing | warm | calIdle | rewarm | trigger | stackBegin => exact h.of_same rfl rfl
  | gapRun => exact h.gapRestart
  | calPending => exact habandon _
  | calDeclared | fell | maxDur => exact hcooldown _
  | primary =>
    unfold TriggerUnit.moved
    dsimp only
    split
    · exact h.of_same rfl rfl
    · exact habandon _
  | stacked =>
    unfold TriggerUnit.moved
    dsimp only
    split <;> exact h.of_same rfl rfl
  | dead =>
    unfold TriggerUnit.moved
    dsimp only
    split <;> exact h.of_same rfl rfl

theorem TriggerUnit.Ranged.tick (h : u.Ranged) (e : Energy) (cal gapRun : Bool) : (u.tick e cal gapRun).Ranged :=
  h.of_same (by rw [TriggerUnit.tick_eq]) (by rw [TriggerUnit.tick_eq])

end

/-! ### The bounds -/

/-- The settings lie in their ranges, and the next index is one past the newest. -/
structure State.Bounded (s : State) : Prop where
  station : s.settings.station.Legal
  units : ∀ b, (s.units.get b).Ranged
  next : ∀ n, s.newestIndex = some n → n + 1 = s.intake.nextIndex

theorem State.bounded_of_kept {s : State} (hring : s.RingKept) (hlegal : s.SettingsLegal) : s.Bounded := by
  obtain ⟨-, -, -, hnewest, -⟩ := hring
  obtain ⟨hstation, hprofile, hstaged, -⟩ := hlegal
  refine ⟨hstation, fun b => ⟨hprofile b, hstaged b⟩, fun n hn => ?_⟩
  rw [State.newestIndex, hnewest] at hn
  split at hn
  · cases hn
  · cases hn
    exact BitVec.sub_add_cancel _ _

/-- One unit replaced by one in its ranges. -/
theorem State.Bounded.setUnit {s : State} (h : s.Bounded) (b : Band) {u : TriggerUnit} (hu : u.Ranged) :
    (s.setUnit b u).Bounded := by
  refine ⟨h.station, fun c => ?_, h.next⟩
  rw [State.setUnit_units, Bands.get_set]
  split
  · exact hu
  · exact h.units c

/-- Where only the refiner, the records and what is owed differ, the bounds stay. -/
theorem State.Bounded.of_settled {s t : State} (h : s.Bounded) (hst : OnlySettled s t)
    (hunits : ∀ b, (t.units.get b).Ranged) : t.Bounded :=
  ⟨hst.settings ▸ h.station, hunits, by rw [State.newestIndex, hst.ring, hst.intake]; exact h.next⟩

theorem State.Bounded.of_refined {s t : State} (h : s.Bounded) (hst : OnlyRefined s t) : t.Bounded :=
  h.of_settled hst.toOnlySettled (hst.units ▸ h.units)

theorem bounded_invariant : FlightInvariant (fun _ => True) State.Bounded where
  same hst h :=
    ⟨hst.station ▸ h.station, hst.units ▸ h.units, by
      rw [State.newestIndex, hst.newest, hst.nextIndex]; exact h.next⟩
  write k r s _ _ h := by
    have hcore := h.of_refined (completeOverdue_frame s)
    refine ⟨hcore.station, fun b => ?_, fun n hn => ?_⟩
    · obtain ⟨e, cal, gapRun, hu⟩ := writeCore_units k r (completeOverdue s) b
      exact hu ▸ (hcore.units b).tick e cal gapRun
    · cases hn
      rfl
  unit b s _ howed h := by
    refine h.of_settled (unitFinish_frame b s) fun c => ?_
    rw [unitFinish_units howed, Bands.get_set]
    split
    · exact (h.units b).moved _ _
    · exact h.units c
  expiry _ h := (h.of_refined (expiryStep_frame _ _)).of_settled (setOwed_frame _ _)
    (h.of_refined (expiryStep_frame _ _)).units
  scanStart h := h.of_refined (scanStartStep_frame _ _)
  examination _ h := h.of_refined (launchExamination_frame _)
  completion l _ _ h := h.of_refined (completeLane_frame l _)
  read _ _ h := ⟨h.station, h.units, h.next⟩
  setProfile b _ _ hg h := h.setUnit b ((h.units b).accept hg)
  setStation hx _ _ h := ⟨hx, h.units, h.next⟩
  start {s} h := by
    refine ⟨h.station, fun b => ?_, h.next⟩
    rw [startCore_unit]
    exact (h.units b).of_same rfl rfl
  stop {s} h := by
    refine ⟨h.station, fun b => ?_, h.next⟩
    rw [stopCore_unit]
    exact ((h.units b).of_same (v := { s.units.get b with state := .off }) rfl rfl).applyStaged
  reset := by
    obtain ⟨hstation, hprofile, hstaged, -⟩ := reset_settingsLegal
    exact ⟨hstation, fun b => ⟨hprofile b, hstaged b⟩, nofun⟩

end Sys2Proof.Machine
end

section
/-! Confirmations as a unit runs them: how long one has run at the newest slot, through a slot write, the unit's
handling and an accepted profile (R66, R67, R73, R74). -/

namespace Sys2Proof.Machine

/-- A confirmation that began at an index has run for `count` slots at newest index `n`, and has come to its length only
while the unit's handling is owed. -/
def Profile.Confirms (p : Profile) (n : Index) (owes : Bool) (start : Index) (count : Nat) : Prop :=
  distance start n = count ∧ count ≤ p.confirmLen ∧ (owes = false → count < p.confirmLen)

/-- The unit's confirmations, of a first declaration in PENDING and of a stacked one in DECLARED. -/
structure TriggerUnit.Runs (u : TriggerUnit) (n : Index) (owes : Bool) : Prop where
  primary : ∀ a, u.state = .pending → u.tOn = some a → u.profile.Confirms n owes a u.confirmCount
  stacked : ∀ t2, u.state = .declared → u.tOn2 = some t2 → u.profile.Confirms n owes t2 u.stackCount

theorem Profile.Confirms.begins {p : Profile} (h : p.Legal) (n : Index) (owes : Bool) : p.Confirms n owes n 0 := by
  obtain ⟨-, -, -, -, -, -, -, ⟨hlen, -⟩, -⟩ := h
  exact ⟨by simp [distance], Nat.zero_le _, fun _ => hlen⟩

/-- A confirmation runs on at a slot write until it has come to its length. -/
theorem Profile.Confirms.next {p : Profile} {n start : Index} {count : Nat} (hp : p.Legal)
    (h : p.Confirms n false start count) : p.Confirms (n + 1) true start (count + 1) := by
  obtain ⟨-, -, -, -, -, -, -, ⟨-, hlen⟩, -⟩ := hp
  obtain ⟨hage, -, hlt⟩ := h
  have hcount := hlt rfl
  refine ⟨?_, hcount, nofun⟩
  unfold distance at hage ⊢
  bv_omega

/-- With its handling taken, an unfinished confirmation has not come to its length. -/
theorem Profile.Confirms.handled {p : Profile} {n start : Index} {count : Nat} (h : p.Confirms n true start count)
    (hne : count ≠ p.confirmLen) : p.Confirms n false start count :=
  ⟨h.1, h.2.1, fun _ => Nat.lt_of_le_of_ne h.2.1 hne⟩

section
variable {u : TriggerUnit} {n : Index} {owes : Bool}

theorem TriggerUnit.Runs.of_unfrozen (h : u.state.frozen = false) : u.Runs n owes :=
  ⟨fun _ hp => absurd h (by rw [hp]; decide), fun _ hd => absurd h (by rw [hd]; decide)⟩

theorem TriggerUnit.Runs.of_unstacked (h : u.state = .declared) (h2 : u.tOn2 = none) : u.Runs n owes :=
  ⟨fun _ hp => (nomatch h.symm.trans hp), fun _ _ ht => (nomatch h2.symm.trans ht)⟩

/-- At a slot write each confirmation counts it. -/
theorem TriggerUnit.Runs.tick (h : u.Runs n false) (hp : u.profile.Legal) (e : Energy) (cal gapRun : Bool) :
    (u.tick e cal gapRun).Runs (n + 1) true := by
  cases hstate : u.state with
  | pending =>
    rw [tick_of_pending _ _ _ hstate, average_of_frozen (by rw [hstate]; rfl)]
    exact ⟨fun a _ ha => (h.primary a hstate ha).next hp, fun _ hd => (nomatch hstate.symm.trans hd)⟩
  | declared =>
    rw [tick_of_declared _ _ _ hstate, average_of_frozen (by rw [hstate]; rfl)]
    refine ⟨fun _ hd => (nomatch hstate.symm.trans hd), fun t2 _ ht2 => ?_⟩
    have hrun := (h.stacked t2 hstate ht2).next hp
    have hsome : u.tOn2.isSome = true := by rw [show u.tOn2 = some t2 from ht2]; rfl
    dsimp only
    rwa [if_pos hsome]
  | off | warming | idle | cooldown => exact .of_unfrozen (by rw [tick_state, hstate]; rfl)

theorem applyStaged_unfrozen (h : u.state.frozen = false) : u.applyStaged.state.frozen = false :=
  (applyStaged_applied u).not_frozen h

theorem abandon_unfrozen (u : TriggerUnit) (w : Bool) : (u.abandon w).state.frozen = false :=
  applyStaged_unfrozen rfl

theorem gapRestart_unfrozen (u : TriggerUnit) : u.gapRestart.state.frozen = false := by
  unfold TriggerUnit.gapRestart
  split
  · rename_i hoff
    rw [hoff]
    rfl
  · exact applyStaged_unfrozen rfl
  · exact applyStaged_unfrozen rfl
  all_goals rfl

/-- Where nothing is due, no confirmation has come to its length (R67, R74). -/
theorem due_nothing_counts {cal gapRun : Bool} (h : u.due n cal gapRun = .nothing) :
    (u.state = .pending → u.confirmCount ≠ u.profile.confirmLen)
      ∧ (u.state = .declared → u.tOn2.isSome → u.stackCount ≠ u.profile.confirmLen) := by
  constructor
  · intro hstate hcount
    rw [TriggerUnit.due, hstate] at h
    dsimp only at h
    split_ifs at h
  · intro hstate hsome hcount
    rw [TriggerUnit.due, hstate] at h
    simp only [hsome, hcount, decide_true, Bool.and_self, if_true] at h
    split_ifs at h

/-- The handling of a slot write leaves no confirmation at its length: it has been decided. -/
theorem TriggerUnit.Runs.moved {cal gapRun : Bool} (h : u.Runs n true) (hp : u.profile.Legal) :
    (u.moved n (u.due n cal gapRun)).Runs n false := by
  have hfinds := u.due_finds n cal gapRun
  cases hd : u.due n cal gapRun with
  | nothing =>
    obtain ⟨hpending, hdeclared⟩ := due_nothing_counts hd
    exact ⟨fun a hstate ha => (h.primary a hstate ha).handled (hpending hstate), fun t2 hstate ht2 =>
      (h.stacked t2 hstate ht2).handled (hdeclared hstate (by rw [show u.tOn2 = some t2 from ht2]; rfl))⟩
  | gapRun => exact .of_unfrozen (gapRestart_unfrozen u)
  | warm | rewarm => exact .of_unfrozen rfl
  | calIdle =>
    rw [hd] at hfinds
    exact .of_unfrozen (show u.state.frozen = false by rw [show u.state = .idle from hfinds]; rfl)
  | trigger =>
    refine ⟨fun a _ ha => ?_, nofun⟩
    cases ha
    exact .begins hp n false
  | calPending => exact .of_unfrozen (abandon_unfrozen u _)
  | primary =>
    unfold TriggerUnit.moved
    dsimp only
    split
    · exact .of_unstacked rfl rfl
    · exact .of_unfrozen (abandon_unfrozen u _)
  | calDeclared | fell | maxDur => exact .of_unfrozen (applyStaged_unfrozen rfl)
  | stacked =>
    rw [hd] at hfinds
    unfold TriggerUnit.moved
    dsimp only
    split
    · exact .of_unstacked hfinds.1 rfl
    · exact .of_unstacked hfinds.1 rfl
  | stackBegin =>
    rw [hd] at hfinds
    refine ⟨fun _ hp => (nomatch hfinds.1.symm.trans hp), fun t2 _ ht2 => ?_⟩
    cases ht2
    exact .begins hp n false
  | dead =>
    unfold TriggerUnit.moved
    dsimp only
    split <;> exact .of_unfrozen rfl

theorem TriggerUnit.Runs.accept (h : u.Runs n owes) (g : Staged) : (u.accept g).Runs n owes := by
  unfold TriggerUnit.accept
  split
  · exact ⟨h.primary, h.stacked⟩
  · rename_i hfrozen
    exact .of_unfrozen ((applyProfile_applied u g).not_frozen (Bool.eq_false_iff.2 hfrozen))

end

end Sys2Proof.Machine
end

section
/-! Requests in flight: the condition on each, on each lane and on each confirmation, and what keeps them where the
newest slot stays (R66, R73, R78, R93, R94, R96, R101). -/

namespace Sys2Proof.Machine

/-! ### A lane and its request -/

/-- A lane's request meets the one condition, and the other too once the lane scans or resolves. -/
def Lane.Within (Q E : Request → Prop) : Lane → Prop
  | .free => True
  | .waiting r => Q r
  | .scanning r _ => Q r ∧ E r
  | .resolving r _ _ => Q r ∧ E r

section
variable {Q Q' E E' : Request → Prop}

theorem Lane.Within.imp {x : Lane} (h : x.Within Q E) (hq : ∀ r, Q r → Q' r) (he : ∀ r, Q r → E r → E' r) :
    x.Within Q' E' := by
  cases x with
  | free => trivial
  | waiting r => exact hq r h
  | scanning r w => exact ⟨hq r h.1, he r h.1 h.2⟩
  | resolving r w k => exact ⟨hq r h.1, he r h.1 h.2⟩

theorem Lane.Within.request {x : Lane} {r : Request} (h : x.Within Q E) (hr : x.request = some r) : Q r := by
  cases x with
  | free => cases hr
  | waiting => cases hr; exact h
  | scanning | resolving => cases hr; exact h.1

/-- A launched request whose window has not yet ended waits (R92). -/
theorem within_launchedLane {r : Request} {n : Index} (h : Q r) (he : earlier n r.windowEnd = false → E r) :
    (launchedLane r n).Within Q E := by
  unfold launchedLane
  split
  · exact h
  · rename_i hended
    exact ⟨h, he (Bool.eq_false_iff.2 hended)⟩

theorem Lane.Within.startScan {x : Lane} {n : Index} (h : x.Within Q E) (he : ∀ r, Q r → r.windowEnd = n → E r) :
    (x.startScan n).Within Q E := by
  cases x with
  | free | scanning | resolving => exact h
  | waiting r =>
    unfold Lane.startScan
    dsimp only
    split
    · rename_i hn
      exact ⟨h, he r h hn⟩
    · exact h

theorem Lane.Within.countWrite {x : Lane} (h : x.Within Q E) : x.countWrite.Within Q E := by
  cases x <;> exact h

theorem Lane.Within.afterRead {x : Lane} (h : x.Within Q E) (g : Ring) : (x.afterRead g).Within Q E := by
  cases x with
  | free | waiting | resolving => exact h
  | scanning r w =>
    unfold Lane.afterRead
    dsimp only
    split <;> exact h

/-- A truncation ends a window that it reaches at a slot written (R101, R103, R104). -/
theorem Lane.Within.truncate {x : Lane} {b : Band} {t2 : Index} (h : x.Within Q E)
    (hq : ∀ r, Q r → Q' (r.truncate b t2)) (hkept : ∀ r, Q r → Q' r) (he : ∀ r, E r → E' r)
    (hcut : ∀ r, Q r → r.reached b t2 = true → E' (r.cut t2)) : (x.truncate b t2).Within Q' E' := by
  have hreached (r : Request) (hr : Q r) (h : r.reached b t2 = true) : Q' (r.cut t2) := by
    have hcut := hq r hr
    rwa [Request.truncate, if_pos h] at hcut
  cases x with
  | free => trivial
  | resolving r w k => exact ⟨hkept r h.1, he r h.2⟩
  | waiting r =>
    unfold Lane.truncate
    dsimp only
    split
    · rename_i hin
      exact ⟨hreached r h hin, hcut r h hin⟩
    · exact hkept r h
  | scanning r w =>
    unfold Lane.truncate
    dsimp only
    split
    · rename_i hin
      split <;> exact ⟨hreached r h.1 hin, hcut r h.1 hin⟩
    · exact ⟨hkept r h.1, he r h.2⟩

end

/-! ### The requests and the confirmations of a state -/

/-- A request that may be in flight: it is kept, the first slot is written, and a stacked confirmation of its band
began after its trigger. -/
structure State.Allows (s : State) (r : Request) : Prop where
  written : s.ring.newest.isSome
  kept : s.RequestKept r
  later : ∀ t2, (s.units.get r.band).state = .declared → (s.units.get r.band).tOn2 = some t2 →
    s.age t2 < s.age r.trigger

/-- A queue and lanes that a state allows. -/
def State.AllowsAll (s : State) (rf : Refiner) : Prop := rf.All s.Allows (Lane.Within s.Allows s.EndWritten)

/-- Every request in flight and every confirmation is as it should be: `State.RequestsKept` in the terms of the
operations. -/
structure State.FlightKept (s : State) : Prop where
  flight : s.AllowsAll s.refiner
  runs : ∀ b, (s.units.get b).Runs s.newestOr (s.owed.units.get b)
  empty : s.ring.newest = none → s.owed = Owed.nothing ∧ ∀ b, (s.units.get b).state.frozen = false

theorem State.flightKept_of_requestsKept {s : State} (h : s.RequestsKept) : s.FlightKept := by
  obtain ⟨hrequest, hscan, hresolve, hruns, hempty⟩ := h
  have hallows (r : Request) (hr : s.InFlight r) : s.Allows r := by
    refine ⟨Option.isSome_iff_ne_none.2 fun hn => (hempty hn).2.1 r hr, hrequest r hr, fun t2 hd ht2 => ?_⟩
    exact ((hruns r.band).2 t2 hd ht2).2 r hr rfl
  have hlane (l : LaneId) (r : Request) (hr : (s.refiner.lanes.get l).request = some r) : s.Allows r :=
    hallows r (.inr ⟨l, hr⟩)
  refine ⟨⟨fun r hr => hallows r (.inl hr), fun l => ?_⟩, fun b => ?_, fun hn => ⟨(hempty hn).1, (hempty hn).2.2⟩⟩
  · have hrequest := hlane l
    cases hl : s.refiner.lanes.get l with
    | free => trivial
    | waiting r => exact hrequest r (by rw [hl]; rfl)
    | scanning r w => exact ⟨hrequest r (by rw [hl]; rfl), hscan l r w hl⟩
    | resolving r w k => exact ⟨hrequest r (by rw [hl]; rfl), hresolve l r w k hl⟩
  · exact ⟨(hruns b).1, fun t2 hd ht2 => ((hruns b).2 t2 hd ht2).1⟩

theorem State.FlightKept.allows {s : State} (h : s.FlightKept) {r : Request} (hr : s.InFlight r) : s.Allows r := by
  rcases hr with hr | ⟨l, hl⟩
  · exact h.flight.1 r hr
  · exact (h.flight.2 l).request hl

theorem State.requestsKept_iff (s : State) : s.RequestsKept ↔ s.FlightKept := by
  refine ⟨State.flightKept_of_requestsKept, fun h => ?_⟩
  refine ⟨fun r hr => (h.allows hr).kept, fun l r w hl => ?_, fun l r w k hl => ?_, fun b => ?_, fun hn => ?_⟩
  · have hlane := h.flight.2 l
    rw [hl] at hlane
    exact hlane.2
  · have hlane := h.flight.2 l
    rw [hl] at hlane
    exact hlane.2
  · refine ⟨(h.runs b).primary, fun t2 hd ht2 => ⟨(h.runs b).stacked t2 hd ht2, fun r hr hb => ?_⟩⟩
    subst hb
    exact (h.allows hr).later t2 hd ht2
  · exact ⟨(h.empty hn).1, fun r hr => absurd (h.allows hr).written (by rw [hn]; decide), (h.empty hn).2⟩

/-! ### Where the newest slot stays -/

section
variable {s t : State}

theorem State.age_of_newest (h : t.ring.newest = s.ring.newest) (i : Index) : t.age i = s.age i := by
  rw [State.age, State.age, State.newestOr, State.newestOr, h]

/-- A request stays allowed while the newest slot and the holdback stay, its expiry does not become overdue, and every
stacked confirmation of its band began after its trigger. -/
theorem State.Allows.of_same {r : Request} (h : s.Allows r) (hnewest : t.ring.newest = s.ring.newest)
    (hholdback : t.settings.station.holdback = s.settings.station.holdback)
    (hexpiry : t.owed.refiner ≠ .expiry → s.owed.refiner ≠ .expiry)
    (hlater : ∀ t2, (t.units.get r.band).state = .declared → (t.units.get r.band).tOn2 = some t2 →
      s.age t2 < s.age r.trigger) : t.Allows r := by
  have hage := State.age_of_newest hnewest
  obtain ⟨hdeadline, hpre, htrigger, hle, hlt, hlength⟩ := h.kept
  refine ⟨hnewest ▸ h.written, ?_, by simpa only [hage] using hlater⟩
  unfold State.RequestKept
  rw [hholdback, hage]
  exact ⟨hdeadline, hpre, htrigger, hle, fun he => hlt (hexpiry he), hlength⟩

/-- Only the refiner and the records differ, and whose handlings beside the units' are owed. -/
theorem State.Allows.of_settled {r : Request} (h : s.Allows r) (hst : OnlySettled s t) (hunits : t.units = s.units)
    (hexpiry : t.owed.refiner ≠ .expiry → s.owed.refiner ≠ .expiry) : t.Allows r :=
  h.of_same (by rw [hst.ring]) (by rw [hst.settings]) hexpiry (by rw [hunits]; exact h.later)

theorem State.EndWritten.of_newest {r : Request} (h : s.EndWritten r) (hnewest : t.ring.newest = s.ring.newest) :
    t.EndWritten r := h.trans (Nat.le_of_eq (State.age_of_newest hnewest _).symm)

theorem State.AllowsAll.imp {rf : Refiner} (h : s.AllowsAll rf) (hallows : ∀ r, s.Allows r → t.Allows r)
    (hnewest : t.ring.newest = s.ring.newest) : t.AllowsAll rf :=
  Refiner.All.imp h hallows fun _ hx => hx.imp hallows fun _ _ he => he.of_newest hnewest

end

/-! ### Launches, scans and cuts of allowed requests -/

section
variable {s : State}

/-- A window of at most 512 slots that began at most 4096 slots ago has ended unless its end is still to come (R1). -/
theorem State.Allows.endWritten {r : Request} (h : s.Allows r) (hholdback : s.settings.station.holdback ≤ 4096)
    (he : earlier s.newestOr r.windowEnd = false) : s.EndWritten r := by
  obtain ⟨-, -, -, hle, -, -, hlength⟩ := h.kept
  have hage := hle.trans hholdback
  simp only [State.EndWritten, State.age, Request.length, distance, earlier, Bool.and_eq_false_iff,
    decide_eq_false_iff_not] at *
  bv_omega

theorem State.endWritten_of_windowEnd {r : Request} (h : r.windowEnd = s.newestOr) : s.EndWritten r := by
  rw [State.EndWritten, State.age, h]

/-- Launches keep what a state allows. -/
theorem State.launchKeeps_allowsAll (hholdback : s.settings.station.holdback ≤ 4096) :
    LaunchKeeps s.newestOr s.AllowsAll :=
  launchKeeps_all fun _ hr => within_launchedLane hr (hr.endWritten hholdback)

end

end Sys2Proof.Machine
end

section
/-! Requests in flight and confirmations through every step (R66, R73, R78, R93, R94, R96, R101). -/

namespace Sys2Proof.Machine

/-! ### Distances (R1) -/

section
variable {a b n : Index}

theorem distance_self (n : Index) : distance n n = 0 := by
  rw [distance, BitVec.sub_self]
  rfl

theorem distance_add (h : distance a b ≤ distance a n) : distance a b + distance b n = distance a n := by
  unfold distance at *
  bv_omega

theorem distance_add_of_le (h : distance b n ≤ distance a n) : distance a b + distance b n = distance a n := by
  unfold distance at *
  bv_omega

theorem distance_pred (h : 1 ≤ distance a b) : distance a (subSlots b 1) + 1 = distance a b := by
  unfold distance subSlots at *
  bv_omega

theorem distance_le_of_notLater (h : notLater b n = true) (hb : distance a b < 8192) (hn : distance a n < 8192) :
    distance a b ≤ distance a n := by
  simp only [distance, notLater, earlier, Bool.or_eq_true, Bool.and_eq_true, decide_eq_true_eq, beq_iff_eq] at *
  rcases h with rfl | h
  · exact Nat.le_refl _
  · bv_omega

end

/-! ### Where the newest slot and the units stay -/

section
variable {s t : State}

theorem State.FlightKept.of_same (h : s.FlightKept) (hnewest : t.ring.newest = s.ring.newest)
    (hholdback : t.settings.station.holdback = s.settings.station.holdback) (hunits : t.units = s.units)
    (howed : t.owed.units = s.owed.units) (hexpiry : t.owed.refiner ≠ .expiry → s.owed.refiner ≠ .expiry)
    (hnothing : s.owed = Owed.nothing → t.owed = Owed.nothing) (hflight : s.AllowsAll t.refiner) : t.FlightKept where
  flight := hflight.imp (fun r hr => hr.of_same hnewest hholdback hexpiry (by rw [hunits]; exact hr.later)) hnewest
  runs b := by
    rw [hunits, howed, State.newestOr, hnewest]
    exact h.runs b
  empty hn := by
    rw [hunits]
    obtain ⟨ho, hb⟩ := h.empty (hnewest ▸ hn)
    exact ⟨hnothing ho, hb⟩

/-- Where the refiner and the records alone differ. -/
theorem State.FlightKept.of_refined (h : s.FlightKept) (hst : OnlyRefined s t) (hflight : s.AllowsAll t.refiner) :
    t.FlightKept :=
  h.of_same (by rw [hst.ring]) (by rw [hst.settings]) hst.units (by rw [hst.owed]) (by rw [hst.owed]; exact id)
    (by rw [hst.owed]; exact id) hflight

theorem State.FlightKept.sameFlight (h : s.FlightKept) (hst : SameFlight s t) : t.FlightKept :=
  h.of_same hst.newest (by rw [hst.station]) hst.units hst.owedUnits (mt hst.expiry.2) hst.nothing
    (hst.refiner ▸ h.flight)

end

/-! ### A slot write -/

section
variable {s : State}

theorem State.AllowsAll.free {rf : Refiner} (h : s.AllowsAll rf) (l : LaneId) :
    s.AllowsAll { rf with lanes := rf.lanes.set l .free } := h.set l trivial

theorem State.FlightKept.completeOverdue (h : s.FlightKept) (hb : s.Bounded) : (completeOverdue s).FlightKept :=
  h.of_refined (completeOverdue_frame s)
    ((State.launchKeeps_allowsAll hb.station.1.2).keeps_overdue (fun l h => h.free l) h.flight).1

/-- At a slot write every recent index grows older by one slot. -/
theorem writeCore_age {k : SlotKind} {r : Reading} (hb : s.Bounded) (hn : s.ring.newest.isSome) {i : Index}
    (hage : s.age i < 4096) : (writeCore k r s).age i = s.age i + 1 := by
  obtain ⟨n, hn⟩ := Option.isSome_iff_exists.1 hn
  have hnext := hb.next n.index (by rw [State.newestIndex, hn]; rfl)
  have hnew : (writeCore k r s).newestOr = s.newestOr + 1 := by
    rw [newestOr_of_newest hn, hnext]
    rfl
  rw [State.age] at hage
  rw [State.age, State.age, hnew]
  simp only [distance] at *
  bv_omega

/-- A request whose expiry is not owed is allowed for one slot more (R96). -/
theorem State.Allows.writeCore {k : SlotKind} {r : Reading} {q : Request} (h : s.Allows q) (hb : s.Bounded)
    (howed : s.owed = Owed.nothing) : (writeCore k r s).Allows q := by
  obtain ⟨hdeadline, hpre, htrigger, -, hlt, hlength⟩ := h.kept
  have hage := hlt (by rw [howed]; decide)
  have hlong := hage.trans_le hb.station.1.2
  have hws := writeCore_age (k := k) (r := r) hb h.written hlong
  have hsum : s.age q.trigger < s.age q.ws := by
    simp only [State.age, distance] at *
    bv_omega
  refine ⟨rfl, ⟨hdeadline, hpre, ?_, ?_, fun he => absurd rfl he, hlength⟩, fun t2 hd ht2 => ?_⟩
  · rw [hws]
    exact htrigger.trans (Nat.lt_succ_self _)
  · rw [hws]
    exact hage
  · obtain ⟨e, cal, gapRun, hunit⟩ := writeCore_units k r s q.band
    rw [hunit, TriggerUnit.tick_eq] at hd ht2
    have hlater := h.later t2 hd ht2
    rw [writeCore_age hb h.written ((hlater.trans hsum).trans hlong), writeCore_age hb h.written (hsum.trans hlong)]
    exact Nat.succ_lt_succ hlater

theorem State.FlightKept.writeCore {k : SlotKind} {r : Reading} (h : s.FlightKept) (hb : s.Bounded)
    (howed : s.owed = Owed.nothing) : (writeCore k r s).FlightKept where
  flight := by
    refine Refiner.All.writeCore h.flight (fun q hq => hq.writeCore hb howed) fun x hx => ?_
    refine (Lane.Within.imp hx (fun q hq => hq.writeCore hb howed) fun q hq he => ?_).countWrite
    obtain ⟨-, -, -, -, hlt, -⟩ := hq.kept
    rw [State.EndWritten, writeCore_age hb hq.written ((hlt (by rw [howed]; decide)).trans_le hb.station.1.2)]
    exact Nat.le_succ_of_le he
  runs b := by
    obtain ⟨e, cal, gapRun, hunit⟩ := writeCore_units k r s b
    rw [hunit]
    show TriggerUnit.Runs _ _ ((Bands.all true).get b)
    rw [Bands.get_all]
    cases hn : s.ring.newest with
    | none => exact .of_unfrozen (by rw [tick_state]; exact (h.empty hn).2 b)
    | some n =>
      have hnext := hb.next n.index (by rw [State.newestIndex, hn]; rfl)
      have hruns := h.runs b
      rw [howed, newestOr_of_newest hn, show Owed.nothing.units.get b = false from Bands.get_all _ b] at hruns
      rw [show (Sys2Proof.Machine.writeCore k r s).newestOr = s.intake.nextIndex from rfl, ← hnext]
      exact hruns.tick (hb.units b).profile e cal gapRun
  empty := nofun

end

/-! ### A unit's handling -/

/-- A band that is DECLARED with a stacked confirmation running had it, or begins it now (R73). -/
theorem moved_tOn2 {u : TriggerUnit} {n t2 : Index} {d : UnitDue} (hfinds : d.Finds u)
    (hd : (u.moved n d).state = .declared) (ht2 : (u.moved n d).tOn2 = some t2) :
    u.state = .declared ∧ u.tOn2 = some t2 ∨ t2 = n := by
  have hcontra (v : TriggerUnit) (hv : v.state.frozen = false) (hd : v.state = .declared) : False := by
    rw [hd] at hv
    cases hv
  cases d with
  | nothing => exact .inl ⟨hd, ht2⟩
  | gapRun => exact (hcontra _ (gapRestart_unfrozen u) hd).elim
  | warm | rewarm | trigger => cases hd
  | calIdle => exact .inl ⟨hd, ht2⟩
  | calPending => exact (hcontra _ (abandon_unfrozen u _) hd).elim
  | calDeclared | fell | maxDur => exact (hcontra _ (applyStaged_unfrozen rfl) hd).elim
  | primary =>
    unfold TriggerUnit.moved at hd ht2
    dsimp only at hd ht2
    split at ht2
    · cases ht2
    · rename_i hon
      rw [if_neg hon] at hd
      exact (hcontra _ (abandon_unfrozen u _) hd).elim
  | stacked =>
    unfold TriggerUnit.moved at ht2
    dsimp only at ht2
    split at ht2 <;> cases ht2
  | stackBegin =>
    cases ht2
    exact .inr rfl
  | dead =>
    unfold TriggerUnit.moved at hd
    dsimp only at hd
    split at hd <;> cases hd

section
variable {s : State} {b : Band}

/-- A request in flight triggered before the newest slot. -/
theorem State.Allows.trigger_lt {r : Request} (h : s.Allows r) : 0 < s.age r.trigger := by
  obtain ⟨-, -, htrigger, -⟩ := h.kept
  simp only [State.age, distance] at *
  bv_omega

/-- What a state allows, it allows once a unit has moved. -/
theorem State.Allows.setUnit {r : Request} (h : s.Allows r) {d : UnitDue} (hfinds : d.Finds (s.units.get b)) :
    (s.setUnit b ((s.units.get b).moved s.newestOr d)).Allows r := by
  refine h.of_same rfl rfl id fun t2 hd ht2 => ?_
  rw [State.setUnit_units, Bands.get_set] at hd ht2
  split at hd
  · rename_i hb
    rw [if_pos hb] at ht2
    rw [← hb] at hfinds hd ht2
    rcases moved_tOn2 hfinds hd ht2 with ⟨hd, ht2⟩ | rfl
    · exact h.later t2 hd ht2
    · rw [State.age, distance_self]
      exact h.trigger_lt
  · rename_i hb
    rw [if_neg hb] at ht2
    exact h.later t2 hd ht2

/-- The request of a declaration whose confirmation has just come to its length (R78, R88). -/
theorem makeRequest_allows {u : TriggerUnit} {start : Index} (stack ratio : Nat) (x : TimingState)
    (hstation : s.settings.station.Legal) (hu : u.profile.Legal) (hn : s.ring.newest.isSome)
    (hage : s.age start = u.profile.confirmLen) (h2 : (s.units.get b).tOn2 = none) :
    s.Allows (makeRequest b u stack start ratio s.settings.station.holdback x) := by
  obtain ⟨⟨hmin, -⟩, -⟩ := hstation
  obtain ⟨-, -, -, -, -, -, -, hlen, -, -, -, -, hpre, hpost, -⟩ := hu
  refine ⟨hn, ⟨rfl, ?_⟩, fun t2 _ ht2 => (nomatch h2.symm.trans ht2)⟩
  have hstart : distance start s.newestOr = u.profile.confirmLen := hage
  generalize u.profile.confirmLen = len at *
  simp only [makeRequest, State.age, Request.length, distance, addSlots, subSlots] at *
  generalize u.profile.pre = pre at *
  generalize u.profile.post = post at *
  generalize s.settings.station.holdback = holdback at *
  generalize s.newestOr = n at *
  bv_omega

/-- A truncation at a slot after the trigger leaves a window of the slots before it, all written (R101). -/
theorem State.Allows.cut {r : Request} {t2 : Index} (h : s.Allows r) (hholdback : s.settings.station.holdback ≤ 4096)
    (hlater : s.age t2 < s.age r.trigger) (hreached : r.reached b t2 = true) :
    s.Allows (r.cut t2) ∧ s.EndWritten (r.cut t2) := by
  obtain ⟨hdeadline, hpre, htrigger, hle, hlt, hmin, hmax⟩ := h.kept
  have hnotLater : notLater t2 r.windowEnd = true := by
    rw [Request.reached, Bool.and_eq_true] at hreached
    exact hreached.2
  have htrigger_age : distance r.ws r.trigger + s.age r.trigger = s.age r.ws := distance_add htrigger.le
  have ht2 : distance r.ws t2 + s.age t2 = s.age r.ws := distance_add_of_le (by simp only [State.age] at *; omega)
  have hend : distance r.ws t2 ≤ distance r.ws r.windowEnd := by
    rw [Request.length] at hmax
    exact distance_le_of_notLater hnotLater (by omega) (by omega)
  have hcut : distance r.ws (r.cut t2).windowEnd + 1 = distance r.ws t2 := distance_pred (by omega)
  rw [Request.length] at hmax
  refine ⟨⟨h.written, ⟨hdeadline, hpre, htrigger, hle, hlt, ?_, ?_⟩, h.later⟩, ?_⟩
  · show 16 ≤ distance r.ws (r.cut t2).windowEnd + 1
    omega
  · show distance r.ws (r.cut t2).windowEnd + 1 ≤ 512
    omega
  · show distance r.ws (r.cut t2).windowEnd ≤ s.age r.ws
    omega

end

end Sys2Proof.Machine
end

section
/-! The lanes, the launch queue, the engines and the requests in flight kept by every step (R66, R73, R78, R89, R93 to
R96, R101, R184, R185). -/

namespace Sys2Proof.Machine

/-! ### A unit's hand-over and truncation (R78 to R80) -/

section
variable {s : State} {b : Band}

/-- A request offered is queued, or shed and never in flight (R89, R90). -/
theorem offerRequest_allowsAll {t : State} {q : Request} (hholdback : s.settings.station.holdback ≤ 4096)
    (hnewest : t.newestOr = s.newestOr) (ht : s.AllowsAll t.refiner) (hq : s.Allows q) :
    s.AllowsAll (offerRequest q t).refiner :=
  LaunchKeeps.keeps_offer (hnewest.symm ▸ State.launchKeeps_allowsAll hholdback) q (fun _ => ht.enqueue hq) ht

/-- A truncation as its confirmation ends, in `s`: in `u`, before that, every request of the band was known to have
triggered before the confirmation began (R80, R101). -/
theorem truncateBand_allowsAll {u t : State} {t2 : Index} (hholdback : s.settings.station.holdback ≤ 4096)
    (hallows : ∀ r, u.Allows r → s.Allows r ∧ (r.band = b → s.age t2 < s.age r.trigger))
    (hnewest : s.ring.newest = u.ring.newest) (ht : u.AllowsAll t.refiner) :
    s.AllowsAll (truncateBand b t2 t).refiner := by
  have hcut (r : Request) (hr : u.Allows r) (hreached : r.reached b t2 = true) :
      s.Allows (r.cut t2) ∧ s.EndWritten (r.cut t2) := by
    have hband : r.band = b := by
      rw [Request.reached, Bool.and_eq_true] at hreached
      exact of_decide_eq_true hreached.1
    exact (hallows r hr).1.cut hholdback ((hallows r hr).2 hband) hreached
  have htruncate (r : Request) (hr : u.Allows r) : s.Allows (r.truncate b t2) := by
    unfold Request.truncate
    split
    · rename_i hreached
      exact (hcut r hr hreached).1
    · exact (hallows r hr).1
  exact Refiner.All.truncateBand ht htruncate fun x hx =>
    hx.truncate htruncate (fun r hr => (hallows r hr).1) (fun _ he => he.of_newest hnewest)
      fun r hr hreached => (hcut r hr hreached).2

/-- What is owed to a slot write is owed once a slot is written. -/
theorem State.FlightKept.newest_of_owed (h : s.FlightKept) (howed : s.owed.units.get b = true) :
    s.ring.newest.isSome := by
  refine Option.isSome_iff_ne_none.2 fun hn => ?_
  rw [(h.empty hn).1, show Owed.nothing.units.get b = false from Bands.get_all _ b] at howed
  cases howed

theorem unitPrimary_allowsAll (h : s.FlightKept) (hunit : (s.units.get b).Kept) (hb : s.Bounded)
    (hn : s.ring.newest.isSome) (hstate : (s.units.get b).state = .pending)
    (hcount : (s.units.get b).confirmCount = (s.units.get b).profile.confirmLen)
    (hmoved : ∀ r, s.Allows r → (s.setUnit b ((s.units.get b).moved s.newestOr .primary)).Allows r) :
    (s.setUnit b ((s.units.get b).moved s.newestOr .primary)).AllowsAll (unitPrimary b s).refiner := by
  have hflight := State.AllowsAll.imp h.flight hmoved rfl
  obtain ⟨hfrozen, -⟩ := hunit
  obtain ⟨-, htOn⟩ := hfrozen (by rw [hstate]; rfl)
  obtain ⟨start, hstart⟩ := Option.isSome_iff_exists.1 htOn
  unfold unitPrimary
  unfold TriggerUnit.moved at hflight ⊢
  dsimp only at hflight ⊢
  split
  · rename_i hon
    rw [if_pos hon] at hflight
    refine offerRequest_allowsAll hb.station.1.2 rfl hflight ?_
    rw [hstart]
    refine makeRequest_allows (s := s.setUnit b (s.units.get b).declare) _ _ _ hb.station (hb.units b).profile hn
      ?_ ?_
    · exact ((h.runs b).primary start hstate hstart).1.trans hcount
    · rw [State.setUnit_units, Bands.get_set_same]
      rfl
  · rename_i hon
    rw [if_neg hon] at hflight
    exact hflight

theorem unitStacked_allowsAll (h : s.FlightKept) (hb : s.Bounded)
    (hn : s.ring.newest.isSome) (hstate : (s.units.get b).state = .declared) (hsome : (s.units.get b).tOn2.isSome)
    (hcount : (s.units.get b).stackCount = (s.units.get b).profile.confirmLen)
    (hmoved : ∀ r, s.Allows r → (s.setUnit b ((s.units.get b).moved s.newestOr .stacked)).Allows r) :
    (s.setUnit b ((s.units.get b).moved s.newestOr .stacked)).AllowsAll (unitStacked b s).refiner := by
  obtain ⟨t2, ht2⟩ := Option.isSome_iff_exists.1 hsome
  have hlater (r : Request) (hr : s.Allows r) (hband : r.band = b) : s.age t2 < s.age r.trigger :=
    hr.later t2 (hband ▸ hstate) (hband ▸ ht2)
  unfold unitStacked
  unfold TriggerUnit.moved at hmoved ⊢
  dsimp only at hmoved ⊢
  rw [ht2, Option.getD_some]
  split
  · rename_i htest
    rw [if_pos htest] at hmoved
    have hcut : (s.setUnit b (s.units.get b).declareStacked).AllowsAll
        (truncateBand b t2 (s.setUnit b (s.units.get b).declareStacked)).refiner :=
      truncateBand_allowsAll hb.station.1.2 (fun r hr => ⟨hmoved r hr, hlater r hr⟩) rfl h.flight
    refine offerRequest_allowsAll hb.station.1.2 rfl hcut ?_
    refine makeRequest_allows (s := s.setUnit b (s.units.get b).declareStacked) _ _ _ hb.station (hb.units b).profile
      hn ?_ ?_
    · exact ((h.runs b).stacked t2 hstate ht2).1.trans hcount
    · rw [State.setUnit_units, Bands.get_set_same]
      rfl
  · rename_i htest
    rw [if_neg htest] at hmoved
    exact State.AllowsAll.imp h.flight hmoved rfl

/-- A confirmation is decided at the slot that brings it to its length (R67, R74). -/
theorem due_counts {u : TriggerUnit} {n : Index} {cal gapRun : Bool} :
    (u.due n cal gapRun = .primary → u.confirmCount = u.profile.confirmLen)
      ∧ (u.due n cal gapRun = .stacked → u.stackCount = u.profile.confirmLen) := by
  unfold TriggerUnit.due
  constructor
  · intro h
    split at h
    case h_1 => cases h
    case h_4 =>
      split_ifs at h with _ _ hcount
      exact hcount
    all_goals split_ifs at h
  · intro h
    split at h
    case h_1 => cases h
    case h_5 =>
      split_ifs at h with _ _ _ _ hcount
      rw [Bool.and_eq_true] at hcount
      exact of_decide_eq_true hcount.2
    all_goals split_ifs at h

theorem unitAct_allowsAll (h : s.FlightKept) (hunit : (s.units.get b).Kept) (hb : s.Bounded)
    (howed : s.owed.units.get b = true) :
    (s.setUnit b ((s.units.get b).moved s.newestOr (s.unitDue b))).AllowsAll
      (unitAct (s.unitDue b) b s).refiner := by
  have hn := h.newest_of_owed howed
  have hfinds := s.unitDue_finds b
  have hmoved (r : Request) (hr : s.Allows r) := hr.setUnit hfinds
  have hflight := State.AllowsAll.imp h.flight hmoved rfl
  have hclose (u : TriggerUnit) (c : CloseCause) (v : TriggerUnit) :
      (handClose b u c (s.setUnit b v)).refiner = s.refiner := (handClose_frame b u c _).refiner
  cases hd : s.unitDue b with
  | nothing | warm | calIdle | rewarm | trigger | calPending | stackBegin | dead =>
    rw [hd] at hflight
    exact hflight
  | calDeclared | fell | maxDur =>
    rw [hd] at hflight
    unfold unitAct unitEnd
    dsimp only
    rw [hclose]
    exact hflight
  | gapRun =>
    rw [hd] at hflight
    unfold unitAct unitGapRun
    dsimp only
    split
    · exact hflight
    · rw [hclose]
      exact hflight
    all_goals exact hflight
  | primary =>
    rw [hd] at hmoved hfinds
    exact unitPrimary_allowsAll h hunit hb hn hfinds (due_counts.1 hd) hmoved
  | stacked =>
    rw [hd] at hmoved hfinds
    exact unitStacked_allowsAll h hb hn hfinds.1 hfinds.2 (due_counts.2 hd) hmoved

theorem State.FlightKept.unitFinish (h : s.FlightKept) (hunit : (s.units.get b).Kept) (hb : s.Bounded)
    (howed : s.owed.units.get b = true) : (unitFinish b s).FlightKept := by
  have hframe := unitFinish_frame b s
  have hunits := unitFinish_units howed
  refine ⟨?_, fun c => ?_, fun hn => ?_⟩
  · rw [unitFinish_refiner howed]
    refine State.AllowsAll.imp (unitAct_allowsAll h hunit hb howed) (fun r hr => ?_) (by rw [hframe.ring]; rfl)
    refine hr.of_same (by rw [hframe.ring]; rfl) (by rw [hframe.settings]; rfl) ?_ ?_
    · rw [unitFinish_owed]
      exact id
    · rw [hunits]
      exact hr.later
  · have hnewest : (Machine.unitFinish b s).newestOr = s.newestOr := by
      rw [State.newestOr, hframe.ring]
      rfl
    rw [hunits, unitFinish_owed, hnewest]
    show TriggerUnit.Runs _ s.newestOr ((s.owed.units.set b false).get c)
    rw [Bands.get_set, Bands.get_set]
    have hruns := h.runs c
    split
    · rename_i hc
      rw [hc, howed] at hruns
      exact hruns.moved (hb.units b).profile
    · exact hruns
  · rw [hframe.ring] at hn
    have hsome := h.newest_of_owed howed
    rw [hn] at hsome
    cases hsome

end

/-! ### The refiner's handling, and the settings -/

section
variable {s : State}

/-- A request whose deadline is not the newest slot comes to it later, if at all (R96). -/
theorem State.Allows.of_not_due {t : State} {r : Request} (h : s.Allows r) (hnewest : t.ring.newest = s.ring.newest)
    (hholdback : t.settings.station.holdback = s.settings.station.holdback) (hunits : t.units = s.units)
    (hdue : r.deadline ≠ s.newestOr) : t.Allows r := by
  have hage := State.age_of_newest hnewest
  obtain ⟨hdeadline, hpre, htrigger, hle, -, hlength⟩ := h.kept
  refine ⟨hnewest ▸ h.written, ?_, by simpa only [hage, hunits] using h.later⟩
  unfold State.RequestKept
  rw [hholdback, hage]
  refine ⟨hdeadline, hpre, htrigger, hle, fun _ => Nat.lt_of_le_of_ne hle fun he => hdue ?_, hlength⟩
  rw [hdeadline, ← he, State.age, distance, BitVec.ofNat_toNat, BitVec.setWidth_eq, BitVec.add_comm]
  exact BitVec.sub_add_cancel _ _

/-- Once those at their deadline have expired, no other comes to it before the next slot (R96). -/
theorem State.FlightKept.expiry (h : s.FlightKept) (howed : s.owed.refiner = .expiry) :
    ((expiryStep s.newestOr s).setOwed { s.owed with refiner := .scanStart }).FlightKept := by
  have hframe := expiryStep_frame s.newestOr s
  have hnewest : (expiryStep s.newestOr s).ring.newest = s.ring.newest := by rw [hframe.ring]
  have hallows (r : Request) (hr : s.Allows r) (hdue : r.deadline ≠ s.newestOr) :
      ((expiryStep s.newestOr s).setOwed { s.owed with refiner := .scanStart }).Allows r :=
    hr.of_not_due hnewest (by rw [State.setOwed_settings, hframe.settings]) hframe.units hdue
  refine ⟨?_, fun b => ?_, fun hn => ?_⟩
  · refine Refiner.All.expiryStep h.flight hallows (fun x hx hdue => ?_) trivial
    cases x with
    | free => trivial
    | waiting r => exact hallows r hx (of_decide_eq_false hdue)
    | scanning r w => exact ⟨hallows r hx.1 (of_decide_eq_false hdue), hx.2.of_newest hnewest⟩
    | resolving r w k => exact ⟨hallows r hx.1 (of_decide_eq_false hdue), hx.2.of_newest hnewest⟩
  · have hruns := h.runs b
    rw [State.setOwed_units, hframe.units, State.newestOr, State.setOwed_ring, hnewest]
    exact hruns
  · rw [State.setOwed_ring, hnewest] at hn
    rw [(h.empty hn).1] at howed
    cases howed

theorem State.FlightKept.scanStart (h : s.FlightKept) : (scanStartStep s.newestOr s).FlightKept :=
  h.of_refined (scanStartStep_frame _ s) (Refiner.All.scanStartStep h.flight fun _ hx =>
    hx.startScan fun _ _ he => State.endWritten_of_windowEnd he)

theorem State.FlightKept.examination (h : s.FlightKept) (hb : s.Bounded) : (launchExamination s).FlightKept :=
  h.of_refined (launchExamination_frame s) ((State.launchKeeps_allowsAll hb.station.1.2).keeps_examination h.flight)

theorem State.FlightKept.completion (h : s.FlightKept) (hb : s.Bounded) (l : LaneId) : (completeLane l s).FlightKept :=
  h.of_refined (completeLane_frame l s)
    ((State.launchKeeps_allowsAll hb.station.1.2).keeps_completion l h.flight (State.AllowsAll.free h.flight l))

theorem State.FlightKept.read (h : s.FlightKept) (l : LaneId) : (grantLane l s).FlightKept :=
  h.of_same rfl rfl rfl rfl id id (Refiner.All.grantLane h.flight fun _ hx => hx.afterRead _)

theorem State.FlightKept.setProfile (h : s.FlightKept) (b : Band) (g : Staged) :
    (s.setUnit b ((s.units.get b).accept g)).FlightKept := by
  have haccept (c : Band) (hd : ((s.setUnit b ((s.units.get b).accept g)).units.get c).state.frozen = true) :
      ((s.setUnit b ((s.units.get b).accept g)).units.get c).state = (s.units.get c).state
        ∧ ((s.setUnit b ((s.units.get b).accept g)).units.get c).tOn2 = (s.units.get c).tOn2 := by
    rw [State.setUnit_units, Bands.get_set] at hd ⊢
    split at hd
    · rename_i hc
      rw [if_pos hc, hc]
      unfold TriggerUnit.accept at hd ⊢
      split at hd
      · rename_i hfrozen
        rw [if_pos hfrozen]
        exact ⟨rfl, rfl⟩
      · rename_i hfrozen
        rw [(applyProfile_applied _ g).not_frozen (Bool.eq_false_iff.2 hfrozen)] at hd
        cases hd
    · rename_i hc
      rw [if_neg hc]
      exact ⟨rfl, rfl⟩
  refine ⟨State.AllowsAll.imp h.flight (fun r hr => hr.of_same rfl rfl id fun t2 hd ht2 => ?_) rfl, fun c => ?_,
    fun hn => ⟨(h.empty hn).1, fun c => ?_⟩⟩
  · obtain ⟨hstate, htOn2⟩ := haccept r.band (by rw [hd]; rfl)
    exact hr.later t2 (hstate ▸ hd) (htOn2 ▸ ht2)
  · rw [State.setUnit_units, Bands.get_set]
    split
    · rename_i hc
      rw [hc]
      exact (h.runs b).accept g
    · exact h.runs c
  · refine Bool.eq_false_iff.2 fun hfrozen => ?_
    obtain ⟨hstate, -⟩ := haccept c hfrozen
    rw [hstate, (h.empty hn).2 c] at hfrozen
    cases hfrozen

/-- The holdback stays while a request may be in flight: with the core STOPPED none is (R116, R159). -/
theorem State.FlightKept.setStation (h : s.FlightKept) (hcore : s.CoreKept) {x : Station}
    (hx : s.settings.core = .stopped ∨ x.holdback = s.settings.station.holdback) :
    State.FlightKept { s with settings := { s.settings with station := x } } := by
  rcases hx with hstopped | hholdback
  · obtain ⟨-, -, hempty⟩ := (State.coreKept_stopped hstopped).1 hcore
    exact ⟨Refiner.Empty.all hempty trivial, h.runs, h.empty⟩
  · exact h.of_same rfl hholdback rfl rfl id id h.flight

theorem State.FlightKept.start (h : s.FlightKept) : (startCore s).FlightKept := by
  have hunfrozen (b : Band) : ((startCore s).units.get b).state.frozen = false := by
    rw [startCore_unit]
    rfl
  exact ⟨State.AllowsAll.imp h.flight (fun r hr => hr.of_same rfl rfl id fun t2 hd =>
      absurd (hunfrozen r.band) (by rw [hd]; decide)) rfl, fun b => .of_unfrozen (hunfrozen b),
    fun hn => ⟨(h.empty hn).1, hunfrozen⟩⟩

theorem State.FlightKept.stop (h : s.FlightKept) : (stopCore s).FlightKept := by
  have hunfrozen (b : Band) : ((stopCore s).units.get b).state.frozen = false := by
    rw [stopCore_unit]
    exact applyStaged_unfrozen rfl
  exact ⟨(stopCore_empty s).all trivial, fun b => .of_unfrozen (hunfrozen b), fun hn => ⟨(h.empty hn).1, hunfrozen⟩⟩

end

/-! ### Every step -/

/-- What the requests in flight rest on, kept by every effect beside them. -/
def State.Grounded (s : State) : Prop := (s.CoreKept ∧ s.UnitsKept) ∧ s.Bounded

theorem State.Grounded.effect {s t : State} (hst : Effect s t) (h : s.Grounded) : t.Grounded :=
  ⟨unitsKept_invariant.keeps_effect hst h.1, bounded_invariant.keeps_effect hst trivial h.2⟩

theorem flightKept_invariant : FlightInvariant State.Grounded State.FlightKept where
  same hst h := h.sameFlight hst
  write _ _ s hc howed h :=
    (h.completeOverdue hc.2).writeCore (hc.2.of_refined (completeOverdue_frame s))
      ((completeOverdue_frame s).owed.trans howed)
  unit b _ hc howed h := h.unitFinish (hc.1.2 b) hc.2 howed
  expiry howed h := h.expiry howed
  scanStart h := h.scanStart
  examination hc h := h.examination hc.2
  completion l _ hc h := h.completion hc.2 l
  read l _ h := h.read l
  setProfile b g _ _ h := h.setProfile b g
  setStation _ hx hc h := h.setStation hc.1.1 hx
  start h := h.start
  stop h := h.stop
  reset := (State.requestsKept_iff _).1 reset_requestsKept

/-- Settles O9: the lanes and the queue, and the requests in flight beside what they rest on, are kept by what the
refiner undergoes; the engines by what they undergo. -/
theorem refinerAndEnginesKeptByEveryStep : Obligations.RefinerAndEnginesKeptByEveryStep := by
  refine ⟨fun s t => refinerKept_step, fun s t => enginesKept_step, ?_⟩
  intro s t hring hlegal hcore hunits _ hrequests ht
  have hgrounded : s.Grounded := ⟨⟨hcore, hunits⟩, State.bounded_of_kept hring hlegal⟩
  exact (State.requestsKept_iff t).2 (flightKept_invariant.keeps_effects State.Grounded.effect (step_effects ht)
    hgrounded ((State.requestsKept_iff s).1 hrequests)).2

end Sys2Proof.Machine
end

section
/-! The Trigger Units' tests, due cases and profiles as their rules state them (R60, R61, R64 to R75, R82 to R84), and a
row of the table at a unit that owes it. -/

namespace Sys2Proof.Machine

/-! ### Applied profiles (R82 to R84) -/

theorem sameShifts_iff (p q : Profile) :
    sameShifts p q = true ↔ q.fastShift = p.fastShift ∧ q.slowShift = p.slowShift ∧ q.staShift = p.staShift
      ∧ q.ltaShift = p.ltaShift := by
  rw [eq_comm (a := q.fastShift), eq_comm (a := q.slowShift), eq_comm (a := q.staShift), eq_comm (a := q.ltaShift)]
  simp only [sameShifts, Bool.and_eq_true, beq_iff_eq, and_assoc]

section
variable {u : TriggerUnit} {g : Staged}

/-- A profile with the same shifts, or for a band that is OFF, leaves the band running (R82). -/
theorem applyProfile_of_same
    (h : u.state = .off ∨ g.profile.fastShift = u.profile.fastShift ∧ g.profile.slowShift = u.profile.slowShift
      ∧ g.profile.staShift = u.profile.staShift ∧ g.profile.ltaShift = u.profile.ltaShift) :
    u.applyProfile g = { u with profile := g.profile, generation := g.generation, staged := none } := by
  refine if_pos ?_
  rw [Bool.or_eq_true, decide_eq_true_eq]
  exact h.imp_right (sameShifts_iff _ _).2

/-- A change of a shift restarts a band that is not OFF (R82, R84). -/
theorem applyProfile_of_changed (hon : u.state ≠ .off)
    (h : ¬ (g.profile.fastShift = u.profile.fastShift ∧ g.profile.slowShift = u.profile.slowShift
      ∧ g.profile.staShift = u.profile.staShift ∧ g.profile.ltaShift = u.profile.ltaShift)) :
    u.applyProfile g =
      { u with
        profile := g.profile, generation := g.generation, staged := none
        state := .warming, warmCount := 0, rewarm := false } := by
  refine if_neg ?_
  rw [Bool.or_eq_true, decide_eq_true_eq, not_or]
  exact ⟨hon, mt (sameShifts_iff _ _).1 h⟩

theorem applyStaged_of_none (h : u.staged = none) : u.applyStaged = u := by rw [TriggerUnit.applyStaged, h]

theorem applyStaged_of_some (h : u.staged = some g) : u.applyStaged = u.applyProfile g := by
  rw [TriggerUnit.applyStaged, h]

end

/-! ### The tests (R60, R61) -/

section
variable {u : TriggerUnit}

theorem onTest_iff :
    u.onTest = true ↔ u.profile.on * max (u.frozenLta.getD u.lta) (256 * u.profile.ltaFloor) ≤ 16 * u.sta :=
  decide_eq_true_iff

theorem offTest_iff :
    u.offTest = true ↔ 16 * u.sta < u.profile.off * max (u.frozenLta.getD u.lta) (256 * u.profile.ltaFloor) :=
  decide_eq_true_iff

theorem stackedTest_iff {m : Nat} :
    u.stackedTest m = true ↔ u.profile.jump * max m (256 * u.profile.ltaFloor) ≤ 16 * u.sta :=
  decide_eq_true_iff

end

/-! ### The first case that holds, state by state (R64, R65, R67 to R69, R75) -/

section
variable {u : TriggerUnit} (n : Index) (cal : Bool)

theorem due_of_off (h : u.state = .off) (gapRun : Bool) : u.due n cal gapRun = .nothing := by
  rw [TriggerUnit.due, h]

theorem due_of_gapRun (h : u.state ≠ .off) : u.due n cal true = .gapRun := by
  unfold TriggerUnit.due
  split
  · exact absurd ‹_› h
  all_goals rfl

theorem due_of_warming (h : u.state = .warming) :
    u.due n cal false = if !cal && decide (u.profile.warmLen ≤ u.warmCount) then .warm else .nothing := by
  rw [TriggerUnit.due, h]
  rfl

theorem due_of_idle (h : u.state = .idle) :
    u.due n cal false =
      if cal then .calIdle else if u.rewarm then .rewarm else if u.onTest then .trigger else .nothing := by
  rw [TriggerUnit.due, h]
  rfl

theorem due_of_pending (h : u.state = .pending) :
    u.due n cal false =
      if cal then .calPending else if u.confirmCount = u.profile.confirmLen then .primary else .nothing := by
  rw [TriggerUnit.due, h]
  rfl

theorem due_of_declared (h : u.state = .declared) :
    u.due n cal false =
      if cal then .calDeclared
      else if u.offTest then .fell
      else if u.profile.maxDur ≤ distance (u.tOn.getD n) n then .maxDur
      else if u.tOn2.isSome && decide (u.stackCount = u.profile.confirmLen) then .stacked
      else if u.tOn2.isNone && decide (u.stack < 3) && u.stackedTest u.staMin then .stackBegin
      else .nothing := by
  rw [TriggerUnit.due, h]
  simp only [Bool.false_eq_true, if_false, decide_eq_true_eq]

theorem due_of_cooldown (h : u.state = .cooldown) :
    u.due n cal false =
      if decide (u.profile.deadLen ≤ u.deadCount) && !(u.rewarm && cal) then .dead else .nothing := by
  rw [TriggerUnit.due, h]
  rfl

end

/-! ### A row at a unit that owes its handling -/

section
variable {s : State} {b : Band} {d : UnitDue}

/-- At the slot write of no other event the unit does what is due, and owes nothing more. -/
theorem unitRow_of_due (howed : s.owed.units.get b = true) (h : s.unitDue b = d) :
    unitRow d b s = (unitAct d b s).setOwed { s.owed with units := s.owed.units.set b false } := by
  rw [unitRow, if_pos h, unitFinish, if_pos howed, h]
  show (unitAct d b s).setOwed ((unitAct d b s).owed.unitDone b) = _
  rw [(unitAct_frame d b s).owed]
  rfl

/-- The same for the row's command, where no handling has begun. -/
theorem row_of_due (hbegun : s.NothingBegun) (howed : s.owed.units.get b = true) (h : s.unitDue b = d) :
    unitRow d b (finishBegun s) = (unitAct d b s).setOwed { s.owed with units := s.owed.units.set b false } := by
  rw [finishBegun_of_nothingBegun hbegun, unitRow_of_due howed h]

theorem unitRow_of_not_due (h : s.unitDue b ≠ d) : unitRow d b s = s := if_neg h

theorem unitDue_eq {u : TriggerUnit} {n : Index} {cal gapRun : Bool} (hu : s.units.get b = u) (hn : s.newestOr = n)
    (hcal : s.newestCal = cal) (hgap : s.owed.gapRun = gapRun) : s.unitDue b = u.due n cal gapRun := by
  rw [State.unitDue, hu, hn, hcal, hgap]

end

end Sys2Proof.Machine
end

section
/-! The rows of the Trigger Units: counts that expire, declarations and their requests, and the capped episode (R64,
R67, R68, R70, R74, R75, R77 to R80, R82, R83, R88 to R90). -/

namespace Sys2Proof.Machine

/-! ### Hand-overs beside the units -/

section
variable (us : Bands TriggerUnit) (o : Owed)

theorem State.withUnits_refiner (s : State) : (s.withUnits us o).refiner = s.refiner := rfl

theorem State.withUnits_settings (s : State) : (s.withUnits us o).settings = s.settings := rfl

theorem State.withUnits_newestIndex (s : State) : (s.withUnits us o).newestIndex = s.newestIndex := rfl

/-- The launch examination reads neither the units nor what is owed. -/
theorem launchLoop_withUnits (fuel : Nat) (s : State) :
    launchLoop fuel (s.withUnits us o) = (launchLoop fuel s).withUnits us o := by
  induction fuel generalizing s with
  | zero => rfl
  | succ fuel ih =>
    unfold launchLoop
    rw [State.withUnits_refiner, State.withUnits_settings, State.withUnits_newestIndex]
    split
    · split
      · exact ih { s with refiner := _ }
      · rfl
    · rfl

theorem launchExamination_withUnits (s : State) :
    launchExamination (s.withUnits us o) = (launchExamination s).withUnits us o := by
  unfold launchExamination
  rw [State.withUnits_refiner, State.withUnits_settings]
  split
  · exact launchLoop_withUnits us o _ s
  · rfl

theorem handCoarse_withUnits (shed : Bool) (q : Request) (s : State) :
    handCoarse shed q (s.withUnits us o) = (handCoarse shed q s).withUnits us o :=
  (withUnits_alike us o).insertRecord q.trigger (fun _ _ => trivial) rfl

theorem offerRequest_withUnits (q : Request) (s : State) :
    offerRequest q (s.withUnits us o) = (offerRequest q s).withUnits us o := by
  unfold offerRequest
  rw [State.withUnits_refiner]
  split
  · exact launchExamination_withUnits us o (s.setQueue (enqueue q s.refiner.queue))
  · exact handCoarse_withUnits us o true q s

end

/-! ### An offered request (R88 to R90) -/

/-- A launch takes a request from the queue to a lane that was FREE: it stays in flight (R92). -/
theorem launchKeeps_mem (n : Index) (q : Request) :
    LaunchKeeps n fun rf => q ∈ rf.queue ∨ ∃ l, (rf.lanes.get l).request = some q := by
  intro rf head more l history hq hfree hrf
  have hlaunched : (launchedLane head n).request = some head := by
    unfold launchedLane
    split <;> rfl
  dsimp only
  rw [hq] at hrf
  rcases hrf with hmem | ⟨m, hm⟩
  · rcases List.mem_cons.1 hmem with rfl | hmem
    · exact .inr ⟨l, by rw [Lanes.get_set_same, hlaunched]⟩
    · exact .inl hmem
  · have hne : m ≠ l := by
      rintro rfl
      rw [hfree] at hm
      cases hm
    exact .inr ⟨m, by rw [Lanes.get_set, if_neg hne, hm]⟩

section
variable {s : State} {q : Request}

/-- Short of six queued requests the request is in flight, and no record is made (R89). -/
theorem offerRequest_of_room (h : s.refiner.queue.length < 6) :
    (offerRequest q s).InFlight q ∧ (offerRequest q s).list = s.list := by
  have hoffer : offerRequest q s = launchExamination (s.setQueue (enqueue q s.refiner.queue)) := if_pos h
  rw [hoffer]
  exact ⟨(launchKeeps_mem _ q).keeps_examination (s := s.setQueue _) (.inl (mem_enqueue.2 (.inl rfl))),
    (launchExamination_list _).1⟩

/-- With six queued it is shed: the refiner is as it was, and a coarse record is made (R90). -/
theorem offerRequest_of_full (h : 6 ≤ s.refiner.queue.length) :
    (offerRequest q s).refiner = s.refiner
      ∧ (offerRequest q s).HasRecord q.trigger (.onset (coarsePart q true)) := by
  have hoffer : offerRequest q s = handCoarse true q s := if_neg (Nat.not_lt.2 h)
  rw [hoffer]
  exact ⟨(handCoarse_frame true q s).refiner, insertRecord_hasRecord _ _ s⟩

end

/-- Beside the units and what is owed, what a unit's row does leaves the rest of the state alone. -/
theorem OnlyUnits.sameCore {s t : State} (h : OnlyUnits s t) (o : Owed) : s.SameCore (t.setOwed o) :=
  ⟨h.intake, h.filters, h.ring, h.settings, h.clock, h.resetHeld, h.pending⟩

/-! ### Counts that expire (R64, R75) -/

/-- Settles O37: each row by the case that is due. -/
theorem warmAndDeadCountsExpire : Obligations.WarmAndDeadCountsExpire := by
  rintro s b u hbegun rfl howed
  have hexec (c : Instr) (d : UnitDue) (h : exec c s = .next (unitRow d b (finishBegun s))) :
      exec c s = .next (unitRow d b s) := by rw [h, finishBegun_of_nothingBegun hbegun]
  have hwarm := hexec (.warmCountExpiry b) .warm rfl
  have hdead := hexec (.deadCountExpiry b) .dead rfl
  refine ⟨fun hgap => ?_, fun hgap => ⟨fun hstate hcal hcount => ?_, fun hstate hcount hrewarm => ?_,
    fun hstate hcount hrewarm hcal => ?_, fun hstate hrewarm hcal => ?_⟩⟩
  · have hdue (d : UnitDue) (hd : d = .warm ∨ d = .dead) : s.unitDue b ≠ d := by
      rw [unitDue_eq rfl rfl rfl hgap]
      by_cases hoff : (s.units.get b).state = .off
      · rw [due_of_off _ _ hoff]
        rcases hd with rfl | rfl <;> decide
      · rw [due_of_gapRun _ _ hoff]
        rcases hd with rfl | rfl <;> decide
    rw [hwarm, hdead, unitRow_of_not_due (hdue _ (.inl rfl)), unitRow_of_not_due (hdue _ (.inr rfl))]
    exact ⟨rfl, rfl⟩
  · have hdue : s.unitDue b = .warm := by
      rw [unitDue_eq rfl rfl hcal hgap, due_of_warming _ _ hstate, if_pos (by simpa using hcount)]
    rw [hwarm, unitRow_of_due howed hdue]
    rfl
  · have hdue : s.unitDue b = .dead := by
      rw [unitDue_eq rfl rfl rfl hgap, due_of_cooldown _ _ hstate, if_pos (by simpa [hrewarm] using hcount)]
    rw [hdead, unitRow_of_due howed hdue]
    simp only [unitAct, unitDead, hrewarm, Bool.false_eq_true, if_false]
  · have hdue : s.unitDue b = .dead := by
      rw [unitDue_eq rfl rfl hcal hgap, due_of_cooldown _ _ hstate, if_pos (by simpa using hcount)]
    rw [hdead, unitRow_of_due howed hdue]
    simp only [unitAct, unitDead, hrewarm, if_true, TriggerUnit.enterWarming]
  · have hdue : s.unitDue b ≠ .dead := by
      rw [unitDue_eq rfl rfl hcal hgap, due_of_cooldown _ _ hstate, hrewarm, if_neg (by simp)]
      decide
    rw [hdead, unitRow_of_not_due hdue]

/-! ### The capped episode (R70, R77, R82, R83) -/

/-- An episode's end: its CLOSE record, beside the unit in COOLDOWN with a staged profile applied. -/
theorem unitEnd_eq (b : Band) (c : CloseCause) (w : Bool) (s : State) :
    unitEnd b c w s =
      (insertRecord s.newestOr (.close ((s.units.get b).closePart b s.newestOr c)) s).withUnits
        (s.units.set b ((s.units.get b).toCooldown w).applyStaged) s.owed :=
  (withUnits_alike _ s.owed).insertRecord s.newestOr (fun _ _ => trivial) rfl

/-- Settles O41: the case that is due, the CLOSE record beside the unit, and the staged profile on the ended episode. -/
theorem longEpisodesAreCapped : Obligations.LongEpisodesAreCapped := by
  rintro s b u ended a n hbegun rfl howed hgap hcal hnewest hstate htOn hoff hdur rfl
  have hn := newestOr_of_newest hnewest
  have hdue : s.unitDue b = .maxDur := by
    rw [unitDue_eq rfl hn hcal hgap, due_of_declared _ _ hstate, if_neg (by decide),
      if_neg (mt offTest_iff.1 (Nat.not_lt.2 hoff)), htOn, Option.getD_some,
      if_pos (show (s.units.get b).profile.maxDur ≤ distance a n.index from hdur)]
  have hexec : exec (.maxDurExpiry b) s = .next
      ((unitEnd b .capped false s).setOwed { s.owed with units := s.owed.units.set b false }) :=
    congrArg _ (row_of_due hbegun howed hdue)
  have hclose : (s.units.get b).closePart b n.index .capped =
      { band := b, episode := (s.units.get b).episode, duration := (n.index - a).toNat
        stacked := (s.units.get b).stack, cause := .capped } := by
    rw [TriggerUnit.closePart, htOn]
    rfl
  rw [unitEnd_eq, hn, hclose] at hexec
  have hframe := insertRecord_frame n.index
    (.close { band := b, episode := (s.units.get b).episode, duration := (n.index - a).toNat
              stacked := (s.units.get b).stack, cause := .capped }) s
  refine ⟨_, hexec, insertRecord_hasRecord n.index _ s, rfl, rfl, ?_, hframe.tmu, hframe.refiner, fun hstaged => ?_,
    fun g hstaged hsame => ?_, fun g hstaged hchanged => ?_⟩
  · exact ⟨hframe.intake, hframe.filters, hframe.ring, hframe.settings, hframe.clock, hframe.resetHeld, hframe.pending⟩
  · exact congrArg (s.units.set b) (applyStaged_of_none (u := (s.units.get b).toCooldown false) hstaged)
  · have happlied := applyStaged_of_some (u := (s.units.get b).toCooldown false) hstaged
    exact congrArg (s.units.set b) (happlied.trans (applyProfile_of_same (.inr hsame)))
  · have happlied := applyStaged_of_some (u := (s.units.get b).toCooldown false) hstaged
    exact congrArg (s.units.set b) (happlied.trans (applyProfile_of_changed (fun h => nomatch h) hchanged))

/-! ### First declarations (R67, R68, R78, R79, R83, R88 to R90) -/

/-- Settles O38: the confirming slot's row, by the ON test; the request in flight or shed, or the band back in IDLE. -/
theorem primaryDeclarationsMakeRequests : Obligations.PrimaryDeclarationsMakeRequests := by
  rintro s b u a hbegun rfl howed hgap hcal hstate htOn hcount
  have hdue : s.unitDue b = .primary := by
    rw [unitDue_eq rfl rfl hcal hgap, due_of_pending _ _ hstate, if_neg (by decide), if_pos hcount]
  have hexec : exec (.primaryDeclaration b) s = .next
      ((unitPrimary b s).setOwed { s.owed with units := s.owed.units.set b false }) :=
    congrArg _ (row_of_due hbegun howed hdue)
  refine ⟨fun hon q hq => ?_, fun idle hoff hidle => ?_⟩
  · have hoffer : unitPrimary b s = offerRequest q (s.setUnit b (s.units.get b).declare) := by
      unfold unitPrimary
      rw [if_pos (onTest_iff.2 hon), htOn, hq]
      rfl
    rw [hoffer] at hexec
    have hframe := offerRequest_frame q (s.setUnit b (s.units.get b).declare)
    refine ⟨_, hexec, rfl, hframe.units, rfl, ?_, hframe.tmu, fun hroom => ?_, fun hfull => ?_⟩
    · exact ((setUnit_frame b _ s).trans hframe.toOnlyUnits).sameCore _
    · exact offerRequest_of_room (s := s.setUnit b _) hroom
    · have hkey : q.trigger = a := by rw [hq]
      exact hkey ▸ offerRequest_of_full (s := s.setUnit b (s.units.get b).declare) hfull
  · have habandon : unitPrimary b s = s.setUnit b idle.applyStaged := by
      unfold unitPrimary
      rw [if_neg (mt onTest_iff.1 (Nat.not_le.2 hoff)), hidle]
      rfl
    rw [habandon] at hexec
    have hstaged : idle.staged = (s.units.get b).staged := by rw [hidle]
    refine ⟨fun hnone => ?_, fun g same hsome hsame => ⟨fun h => ?_, fun h => ?_⟩⟩
    · rw [hexec, applyStaged_of_none (hstaged.trans hnone)]
    · rw [hexec, applyStaged_of_some (hstaged.trans hsome), applyProfile_of_same]
      rw [hidle]
      exact .inr (hsame.1 h)
    · rw [hexec, applyStaged_of_some (hstaged.trans hsome), applyProfile_of_changed]
      · rw [hidle]
        exact fun h => nomatch h
      · rw [hidle]
        exact mt hsame.2 h

/-! ### Stacked declarations (R74, R78 to R80, R88 to R90) -/

/-- Settles O39: the row of a decided stacked confirmation, by the stacked test; the truncation, then the request. -/
theorem stackedDeclarationsMakeRequests : Obligations.StackedDeclarationsMakeRequests := by
  rintro s b u a t2 m n hbegun rfl howed hgap hcal hnewest hstate htOn htOn2 hmin hdur hcount hoff
  have hn := newestOr_of_newest hnewest
  have hdue : s.unitDue b = .stacked := by
    rw [unitDue_eq rfl hn hcal hgap, due_of_declared _ _ hstate, if_neg (by decide),
      if_neg (mt offTest_iff.1 (Nat.not_lt.2 hoff)), htOn, Option.getD_some,
      if_neg (show ¬ (s.units.get b).profile.maxDur ≤ distance a n.index from Nat.not_le.2 hdur),
      if_pos (by simp [htOn2, hcount])]
  have hexec : exec (.stackedDeclaration b) s = .next
      ((unitStacked b s).setOwed { s.owed with units := s.owed.units.set b false }) :=
    congrArg _ (row_of_due hbegun howed hdue)
  have hconfirm : (s.units.get b).confirmMin = m := by rw [TriggerUnit.confirmMin, hmin, Option.getD_some]
  refine ⟨fun htest q hq => ?_, fun htest => ?_⟩
  · have hoffer : unitStacked b s =
        offerRequest q (truncateBand b t2 (s.setUnit b (s.units.get b).declareStacked)) := by
      unfold unitStacked
      dsimp only
      rw [hconfirm, if_pos (stackedTest_iff.2 htest), htOn2, hq]
      rfl
    have hbeside : offerRequest q (truncateBand b t2 (s.setUnit b (s.units.get b).declareStacked)) =
        (offerRequest q (truncateBand b t2 s)).withUnits (s.units.set b (s.units.get b).declareStacked) s.owed :=
      offerRequest_withUnits _ s.owed q (truncateBand b t2 s)
    rw [hoffer] at hexec
    have hframe := (truncateBand_frame b t2 (s.setUnit b (s.units.get b).declareStacked)).trans
      (offerRequest_frame q _)
    have hlength : (truncateBand b t2 (s.setUnit b (s.units.get b).declareStacked)).refiner.queue.length =
        s.refiner.queue.length := List.length_map _
    refine ⟨_, hexec, rfl, ?_, hframe.units, rfl, ?_, hframe.tmu, fun hroom => ?_, fun hfull => ?_⟩
    · rw [State.setOwed_refiner, hbeside]
      rfl
    · exact ((setUnit_frame b _ s).trans hframe.toOnlyUnits).sameCore _
    · exact offerRequest_of_room (hlength ▸ hroom)
    · have hkey : q.trigger = t2 := by rw [hq]
      obtain ⟨hrefiner, hrecord⟩ := offerRequest_of_full (q := q) (hlength.symm ▸ hfull)
      exact ⟨hrefiner, hkey ▸ hrecord⟩
  · rw [hexec]
    unfold unitStacked
    dsimp only
    rw [hconfirm, if_neg (mt stackedTest_iff.1 (Nat.not_le.2 htest))]
    rfl

end Sys2Proof.Machine
end

section
/-! SET PROFILE (R82 to R84, R157 to R159, R166): the band and the profile as the request's bytes carry them, and the
profile applied or staged. -/

namespace Sys2Proof.Machine

/-! ### The band and the profile of a request (R157, R190) -/

theorem profileOfWords_profileWords (x : Profile) (more : List Nat) :
    profileOfWords (profileWords x ++ more) = x := rfl

theorem bandOfByte_of_number {v : Byte} {b : Band} (h : v.toNat = b.number) : bandOfByte v = some b := by
  have hv : v = BitVec.ofNat 8 b.number := by rw [← h, BitVec.ofNat_toNat, BitVec.setWidth_eq]
  rw [hv]
  cases b <;> rfl

theorem bandOfByte_of_none {v : Byte} (h : 3 ≤ v.toNat) : bandOfByte v = none := by
  have hne (w : Byte) (hw : w.toNat < 3) : v ≠ w := by
    rintro rfl
    omega
  rw [bandOfByte, if_neg (hne 0 (by decide)), if_neg (hne 1 (by decide)), if_neg (hne 2 (by decide))]

/-! ### The request at a port that executes it -/

section
variable {s : State} {p : Port} {rest more : List Bool} {v : Byte} {written : Profile}

/-- The request's 39 bytes are the band and the profile written; its body runs on the state with the old response
shifted out. -/
theorem exec_setProfile (hopen : s.PortsOpen) (howed : s.owed = Owed.nothing)
    (hwords : ∀ x ∈ profileWords written, x < 65536)
    (hrest : rest = bitsOfBytes (v :: (profileWords written).flatMap
      fun x => [BitVec.ofNat 8 (x / 256), BitVec.ofNat 8 x]) ++ more) :
    exec (.setProfile p rest) s =
      .next (respond p (setProfileBody p (bandOfByte v) written (openTransaction p (8 + rest.length) s)).2
        (setProfileBody p (bandOfByte v) written (openTransaction p (8 + rest.length) s)).1) := by
  have hbytes : wholeBytes rest = v :: ((profileWords written).flatMap
      (fun x => [BitVec.ofNat 8 (x / 256), BitVec.ofNat 8 x]) ++ wholeBytes more) := by
    rw [hrest, wholeBytes_bitsOfBytes]
    rfl
  have hlong : ¬ ((profileWords written).flatMap
      (fun x => [BitVec.ofNat 8 (x / 256), BitVec.ofNat 8 x]) ++ wholeBytes more).length < 38 := by
    rw [List.length_append]
    exact Nat.not_lt.2 (Nat.le_add_right 38 _)
  show execSetProfile p rest s = _
  rw [execSetProfile, hbytes]
  dsimp only
  rw [if_neg hlong, words16_flatMap hwords, profileOfWords_profileWords, transact_of_open hopen, requestClocks,
    settleOwed_of_nothing (s := openTransaction p (8 + rest.length) s) howed]

/-- The unit, the generation and the notice of an accepted request (R82, R83, R159, R166). -/
def State.acceptedProfile (s : State) (p : Port) (b : Band) (w : TriggerUnit) : State :=
  raise .settings p.other
    { s with
      settings := { s.settings with generation := s.settings.generation + 1 }
      units := s.units.set b w }

theorem setProfileBody_some (p : Port) (b : Band) (written : Profile) (s : State) :
    setProfileBody p (some b) written s =
      (s.acceptedProfile p b ((s.units.get b).accept
          { profile := clampProfile written, generation := s.settings.generation + 1 }),
        .profileSet (decide (clampProfile written ≠ written)) (s.settings.generation + 1)
          (s.units.get b).state.frozen) := rfl

theorem respond_acceptedProfile (p : Port) (clocks : Nat) (r : Response) (b : Band) (w : TriggerUnit) (s : State) :
    respond p r ((openTransaction p clocks s).acceptedProfile p b w) =
      (s.answered p clocks r).acceptedProfile p b w := by
  cases p <;> rfl

/-- An accepted request of a band: its unit takes the clamped profile with the next generation. -/
theorem exec_setProfile_of_band {b : Band} (hopen : s.PortsOpen) (howed : s.owed = Owed.nothing)
    (hwords : ∀ x ∈ profileWords written, x < 65536)
    (hrest : rest = bitsOfBytes (v :: (profileWords written).flatMap
      fun x => [BitVec.ofNat 8 (x / 256), BitVec.ofNat 8 x]) ++ more) (hv : v.toNat = b.number) :
    exec (.setProfile p rest) s =
      .next ((s.answered p (8 + rest.length)
          (.profileSet (decide (clampProfile written ≠ written)) (s.settings.generation + 1)
            (s.units.get b).state.frozen)).acceptedProfile p b
        ((s.units.get b).accept { profile := clampProfile written, generation := s.settings.generation + 1 })) := by
  rw [exec_setProfile hopen howed hwords hrest, bandOfByte_of_number hv, setProfileBody_some, respond_acceptedProfile]
  rfl

end

theorem accept_of_frozen {u : TriggerUnit} (h : u.state.frozen = true) (g : Staged) :
    u.accept g = { u with staged := some g } := if_pos h

theorem accept_of_unfrozen {u : TriggerUnit} (h : u.state.frozen = false) (g : Staged) :
    u.accept g = u.applyProfile g := if_neg (by rw [h]; decide)

/-- Settles O57: the request's bytes, and the profile staged, applied, or applied with a restart. -/
theorem setProfileAppliesOrStages : Obligations.SetProfileAppliesOrStages := by
  rintro s p rest more v written given hopen howed hwords hrest rfl
  refine ⟨fun hv => ?_, ?_⟩
  · rw [exec_setProfile hopen howed hwords hrest, bandOfByte_of_none hv]
    exact congrArg Host.Outcome.next (respond_openTransaction p _ .badParam s)
  · rintro b u same t hv rfl hsame ht
    have hexec := exec_setProfile_of_band (p := p) hopen howed hwords hrest hv
    have hunfrozen (h : (s.units.get b).state = .off ∨ (s.units.get b).state = .warming
        ∨ (s.units.get b).state = .idle ∨ (s.units.get b).state = .cooldown) :
        (s.units.get b).state.frozen = false := by
      rcases h with h | h | h | h
      all_goals rw [h]; rfl
    refine ⟨fun hstate => ?_, fun hstate => ?_, fun hstate hchanged => ?_⟩
    · have hfrozen : (s.units.get b).state.frozen = true := by
        rcases hstate with h | h
        all_goals rw [h]; rfl
      rw [hexec, hfrozen, accept_of_frozen hfrozen, ht]
      rfl
    · have h := hunfrozen (hstate.imp_right And.left)
      rw [hexec, h, accept_of_unfrozen h, applyProfile_of_same (hstate.imp_right fun h => hsame.1 h.2), ht]
      rfl
    · have h := hunfrozen (.inr hstate)
      have hon : (s.units.get b).state ≠ .off := fun hoff => by simp [hoff] at hstate
      rw [hexec, h, accept_of_unfrozen h, applyProfile_of_changed hon (mt hsame.2 hchanged), ht]
      rfl

end Sys2Proof.Machine
end

section
/-! What the Trigger Units do within the slot write (R64 to R71, R73, R75, R77, R83): each unit's case taken at once or
left owed, and the CLOSE records handed over in the order of the units. -/

namespace Sys2Proof.Machine

/-! ### A unit's case within the slot write -/

/-- A unit at the end of the slot write of `n`: a case that is a row of the table waits for its command. -/
def TriggerUnit.plain (u : TriggerUnit) (n : Index) (d : UnitDue) : TriggerUnit :=
  if d.isRow then u else u.moved n d

/-- The CLOSE record of an episode that ends within the slot write of `n` (R70, R71, R77). -/
def TriggerUnit.plainClose (u : TriggerUnit) (b : Band) (n : Index) : UnitDue → Option Detail
  | .calDeclared => some (.close (u.closePart b n .cal))
  | .fell => some (.close (u.closePart b n .fell))
  | _ => none

section
variable {s t : State} {b c : Band}

theorem unitPlain_of_row (h : (s.unitDue b).isRow = true) : unitPlain b s = s := if_pos h

theorem unitPlain_of_plain (h : (s.unitDue b).isRow = false) : unitPlain b s = unitFinish b s :=
  if_neg (Bool.eq_false_iff.1 h)

theorem unitPlain_units (howed : s.owed.units.get b = true) :
    (unitPlain b s).units = s.units.set b ((s.units.get b).plain s.newestOr (s.unitDue b)) := by
  cases hrow : (s.unitDue b).isRow with
  | true => rw [unitPlain_of_row hrow, TriggerUnit.plain, if_pos hrow, Bands.set_get]
  | false => rw [unitPlain_of_plain hrow, unitFinish_units howed, TriggerUnit.plain, if_neg (by rw [hrow]; decide)]

theorem unitPlain_owed (howed : s.owed.units.get b = true) :
    (unitPlain b s).owed.units = s.owed.units.set b (s.unitDue b).isRow := by
  cases hrow : (s.unitDue b).isRow with
  | true => rw [unitPlain_of_row hrow, ← howed, Bands.set_get]
  | false =>
    rw [unitPlain_of_plain hrow, unitFinish_owed]
    rfl

/-- What is due to a unit rests on the newest slot, the unit and the gap-run event alone. -/
theorem PlainKept.unitDue (h : PlainKept s t) (hu : t.units.get b = s.units.get b) : t.unitDue b = s.unitDue b := by
  have hn : t.newestOr = s.newestOr := by rw [State.newestOr, State.newestOr, h.ring]
  have hcal : t.newestCal = s.newestCal := by
    rw [State.newestCal, State.newestCal, State.newestSlot, State.newestSlot, hn, h.ring]
  rw [State.unitDue, State.unitDue, hu, hn, hcal, h.owed]

end

/-! ### States with the same records -/

/-- The list, the readers and the ports are the same in two states. -/
structure SameRecords (s t : State) : Prop where
  list : t.list = s.list
  readers : t.readers = s.readers
  ports : t.ports = s.ports

theorem SameRecords.refl (s : State) : SameRecords s s := ⟨rfl, rfl, rfl⟩

theorem SameRecords.setOwed {s t : State} (h : SameRecords s t) (o : Owed) : SameRecords s (t.setOwed o) :=
  ⟨h.list, h.readers, h.ports⟩

/-- Nothing else is read or changed where records are handed over. -/
theorem sameRecords_alike : RecordsAlike True SameRecords where
  list h := h.list
  readers h := h.readers
  raise n p _ h := ⟨h.list, h.readers, by simp only [raise, State.setPort_ports, h.ports]⟩
  setReader p r h := ⟨h.list, by simp only [State.setReader_readers, h.readers], h.ports⟩
  withList _ _ h := ⟨rfl, h.readers, h.ports⟩

/-- A unit's case within the slot write hands over its CLOSE record, if it has one. -/
theorem unitPlain_records {b : Band} {s t : State} (howed : t.owed.units.get b = true) (h : SameRecords s t) :
    SameRecords (((t.units.get b).plainClose b t.newestOr (t.unitDue b)).toList.foldl
      (fun x d => insertRecord t.newestOr d x) s) (unitPlain b t) := by
  have hrow (hd : (t.unitDue b).isRow = true) : unitPlain b t = t := unitPlain_of_row hd
  have hplain (hd : (t.unitDue b).isRow = false) :
      unitPlain b t = (unitAct (t.unitDue b) b t).setOwed ((unitAct (t.unitDue b) b t).owed.unitDone b) := by
    rw [unitPlain_of_plain hd, unitFinish, if_pos howed]
  have hclose (c : CloseCause) (w : Bool) : SameRecords
      (insertRecord t.newestOr (.close ((t.units.get b).closePart b t.newestOr c)) s) (unitEnd b c w t) :=
    sameRecords_alike.insertRecord t.newestOr (fun _ _ => trivial) ⟨h.list, h.readers, h.ports⟩
  cases hd : t.unitDue b with
  | gapRun | warm | primary | maxDur | stacked | dead =>
    rw [hrow (by rw [hd]; rfl)]
    exact h
  | nothing | calIdle | rewarm | trigger | calPending | stackBegin =>
    rw [hplain (by rw [hd]; rfl), hd]
    exact ⟨h.list, h.readers, h.ports⟩
  | calDeclared =>
    rw [hplain (by rw [hd]; rfl), hd]
    exact (hclose .cal true).setOwed _
  | fell =>
    rw [hplain (by rw [hd]; rfl), hd]
    exact (hclose .fell false).setOwed _

/-! ### The three units, one after another -/

/-- The cases of several units in turn, on a state that differs from `w` by those of the units before them. -/
theorem foldl_unitPlain {w : State} {bs : List Band} (hbs : bs.Nodup) {s t : State} (hkept : PlainKept w t)
    (hunits : ∀ b ∈ bs, t.units.get b = w.units.get b) (howed : ∀ b ∈ bs, t.owed.units.get b = true)
    (hrecords : SameRecords s t) :
    (bs.foldl (fun x b => unitPlain b x) t).units =
        bs.foldl (fun us b => us.set b ((w.units.get b).plain w.newestOr (w.unitDue b))) t.units
      ∧ (bs.foldl (fun x b => unitPlain b x) t).owed.units =
        bs.foldl (fun o b => o.set b (w.unitDue b).isRow) t.owed.units
      ∧ SameRecords ((bs.filterMap fun b => (w.units.get b).plainClose b w.newestOr (w.unitDue b)).foldl
          (fun x d => insertRecord w.newestOr d x) s) (bs.foldl (fun x b => unitPlain b x) t) := by
  induction bs generalizing s t with
  | nil => exact ⟨rfl, rfl, hrecords⟩
  | cons b bs ih =>
    obtain ⟨hnot, hbs⟩ := List.nodup_cons.1 hbs
    have hother (c : Band) (hc : c ∈ bs) : c ≠ b := fun he => hnot (he ▸ hc)
    have hub := hunits b (List.mem_cons_self ..)
    have hob := howed b (List.mem_cons_self ..)
    have hdue := hkept.unitDue hub
    have hn : t.newestOr = w.newestOr := by rw [State.newestOr, State.newestOr, hkept.ring]
    have hu := unitPlain_units hob
    have ho := unitPlain_owed hob
    have hr := unitPlain_records hob hrecords
    rw [hub, hdue, hn] at hu hr
    rw [hdue] at ho
    obtain ⟨ihu, iho, ihr⟩ := ih hbs (hkept.trans (unitPlain_plainKept b t))
      (fun c hc => by rw [hu, Bands.get_set_other _ _ (hother c hc), hunits c (List.mem_cons_of_mem _ hc)])
      (fun c hc => by rw [ho, Bands.get_set_other _ _ (hother c hc), howed c (List.mem_cons_of_mem _ hc)]) hr
    rw [List.foldl_cons, List.foldl_cons, List.foldl_cons, ihu, iho, hu, ho]
    refine ⟨rfl, rfl, ?_⟩
    rw [List.filterMap_cons]
    cases hc : (w.units.get b).plainClose b w.newestOr (w.unitDue b) with
    | none =>
      rw [hc] at ihr
      exact ihr
    | some d =>
      rw [hc] at ihr
      exact ihr

section
variable {w : State} {event : Bool}

theorem takeUnits_spec (howed : w.owed = Owed.all event) :
    (∀ b, (takeUnits w).units.get b = (w.units.get b).plain w.newestOr (w.unitDue b))
      ∧ (∀ b, (takeUnits w).owed.units.get b = (w.unitDue b).isRow)
      ∧ ∀ s, SameRecords s w →
        SameRecords (([Band.b0, .b1, .b2].filterMap fun b =>
          (w.units.get b).plainClose b w.newestOr (w.unitDue b)).foldl (fun x d => insertRecord w.newestOr d x) s)
          (takeUnits w) := by
  have hfold (s : State) (hs : SameRecords s w) := foldl_unitPlain (bs := [.b0, .b1, .b2]) (by decide) (.refl w)
    (fun _ _ => rfl) (fun b _ => by rw [howed]; exact Bands.get_all true b) hs
  obtain ⟨hunits, hout, -⟩ := hfold w (.refl w)
  refine ⟨fun b => ?_, fun b => ?_, fun s hs => (hfold s hs).2.2⟩
  · rw [show (takeUnits w).units = _ from hunits, foldl_set_get]
  · rw [show (takeUnits w).owed.units = _ from hout, foldl_set_get]

/-- The units and what they owe, the records, the readers and the ports are the same in two states. -/
structure AfterUnits (s t : State) : Prop where
  units : t.units = s.units
  owed : t.owed.units = s.owed.units
  records : t.list.records = s.list.records
  nextSerial : t.list.nextSerial = s.list.nextSerial
  nearFullArmed : t.list.nearFullArmed = s.list.nearFullArmed
  readers : t.readers = s.readers
  ports : t.ports = s.ports

/-- What is taken of the refiner, the list and the Time Mark Unit within the slot write leaves the units and the records
alone: nothing is due there. -/
theorem takePlain_afterUnits (howed : w.owed = Owed.all event) : AfterUnits (takeUnits w) (takePlain w) := by
  have howed' := (takeUnits_plainKept w).owed
  rw [takePlain_eq]
  generalize takeUnits w = u at howed' ⊢
  rw [howed] at howed'
  have hrefiner : u.owed.refiner = .expiry := by rw [howed']; rfl
  have hretire : u.owed.list = .retire := by rw [howed']; rfl
  have htiming : u.owed.timing = true := by rw [howed']; rfl
  rw [takeRefiner_eq hrefiner]
  cases hidle : (u.setOwed { u.owed with refiner := if u.refinerIdle then .done else .expiry }).listIdle with
  | false =>
    rw [takeList_of_due hidle, takeTiming_eq]
    · exact ⟨rfl, rfl, rfl, rfl, rfl, rfl, rfl⟩
    · exact htiming
  | true =>
    rw [takeList_of_idle _ hidle, takeTiming_eq]
    · exact ⟨rfl, rfl, rfl, rfl, rfl, rfl, rfl⟩
    · exact htiming
    · exact hretire

end

/-! ### The slot write -/

/-- The records that the units hand over within the slot write of `n`, in the order of the units. -/
def closesAt (us : Bands TriggerUnit) (n : Index) (cal event : Bool) : List Detail :=
  [Band.b0, .b1, .b2].filterMap fun b => (us.get b).plainClose b n ((us.get b).due n cal event)

/-- What one slot write does at the units, on a state that owes nothing and has no resolution overdue. -/
structure UnitsWritten (s t : State) (n : Index) (cal event : Bool) (us : Bands TriggerUnit) : Prop where
  units : ∀ b, t.units.get b = (us.get b).plain n ((us.get b).due n cal event)
  owed : ∀ b, t.owed.units.get b = ((us.get b).due n cal event).isRow
  records : t.list.records = ((closesAt us n cal event).foldl (fun x d => insertRecord n d x) s).list.records
  nextSerial : t.list.nextSerial = ((closesAt us n cal event).foldl (fun x d => insertRecord n d x) s).list.nextSerial
  nearFullArmed :
    t.list.nearFullArmed = ((closesAt us n cal event).foldl (fun x d => insertRecord n d x) s).list.nearFullArmed
  readers : t.readers = ((closesAt us n cal event).foldl (fun x d => insertRecord n d x) s).readers
  ports : t.ports = ((closesAt us n cal event).foldl (fun x d => insertRecord n d x) s).ports

theorem writeSlot_units {k : SlotKind} {r : Reading} {s t : State} {i : Index} {v : Slot} {event : Bool}
    (howed : s.owed = Owed.nothing) (hlanes : ∀ l q w n, s.refiner.lanes.get l = .resolving q w n → n < 4)
    (ht : t = writeSlot k r s) (hi : i = s.intake.nextIndex) (hv : (t.ring.read i).slot = some v)
    (hevent : event = t.owed.gapRun) : UnitsWritten s t i r.cal event (tickUnits v event s.units) := by
  rw [writeSlot_of_nothing howed hlanes] at ht
  subst hi
  have htaken : PlainTaken (writeCore k r s) t := ht ▸ takePlain_taken rfl
  have hslot : completeSlot s.settings.core
      (filterStep s.settings.core (fun b => (s.units.get b).profile) r s.filters) r (decide (k = .damaged))
      (decide (k = .gap)) = v := by
    rw [htaken.ring] at hv
    exact Option.some.inj ((Ring.read_write_same ..).symm.trans hv)
  have hgap : (writeCore k r s).owed = Owed.all event := by
    rw [hevent, htaken.gapRun]
    rfl
  have hunits : (writeCore k r s).units = tickUnits v event s.units := by
    rw [← hslot, hevent, htaken.gapRun]
    rfl
  have hcal : (writeCore k r s).newestCal = r.cal := by
    have hnewest : (writeCore k r s).newestSlot = some v := by rw [← hslot]; exact Ring.read_write_same ..
    rw [State.newestCal, hnewest, ← hslot]
    exact congrArg Reading.cal (completeSlot_reading ..)
  have hdue (b : Band) : (writeCore k r s).unitDue b =
      ((tickUnits v event s.units).get b).due s.intake.nextIndex r.cal event :=
    unitDue_eq (by rw [hunits]) rfl hcal (by rw [hgap]; rfl)
  obtain ⟨hplain, howes, hclosed⟩ := takeUnits_spec hgap
  have hrecords := hclosed s ⟨rfl, rfl, rfl⟩
  have hafter : AfterUnits (takeUnits (writeCore k r s)) t := ht ▸ takePlain_afterUnits hgap
  simp only [hdue, hunits] at hplain howes hrecords
  exact ⟨fun b => (congrArg (·.get b) hafter.units).trans (hplain b),
    fun b => (congrArg (·.get b) hafter.owed).trans (howes b),
    hafter.records.trans (congrArg PickList.records hrecords.list),
    hafter.nextSerial.trans (congrArg PickList.nextSerial hrecords.list),
    hafter.nearFullArmed.trans (congrArg PickList.nearFullArmed hrecords.list),
    hafter.readers.trans hrecords.readers, hafter.ports.trans hrecords.ports⟩

theorem reading_of_writeSlot {k : SlotKind} {r : Reading} {s t : State} {i : Index} {v : Slot}
    (ht : t = writeSlot k r s) (hi : i = s.intake.nextIndex) (hv : (t.ring.read i).slot = some v) : v.reading = r := by
  obtain ⟨-, x, hx, hreading, -⟩ := writeSlot_wroteSlot k r s
  rw [ht, hi, hx] at hv
  cases hv
  exact hreading

/-- A record that a unit hands over stands in the list if it has room for one of each band. -/
theorem UnitsWritten.hasRecord {s t : State} {n : Index} {cal event : Bool} {us : Bands TriggerUnit}
    (h : UnitsWritten s t n cal event us) {b : Band} {d : Detail}
    (hclose : (us.get b).plainClose b n ((us.get b).due n cal event) = some d)
    (hroom : s.list.records.length ≤ 61) : t.HasRecord n d := by
  have hlength : (closesAt us n cal event).length ≤ 3 := List.length_filterMap_le _ _
  have hrecord := foldl_insertRecord_hasRecord (s := s) n (fun d => d) (closesAt us n cal event)
    (Nat.add_le_add hroom hlength)
    (.inr ⟨rfl, d, List.mem_filterMap.2 ⟨b, by cases b <;> decide, hclose⟩, rfl⟩)
  rw [State.HasRecord, h.records]
  exact hrecord

/-! ### Which case closes an episode (R70 to R72) -/

/-- Only in DECLARED does an episode end. -/
theorem plainClose_of_not_declared {u : TriggerUnit} {d : UnitDue} (hd : d.Finds u) (h : u.state ≠ .declared) (b : Band)
    (n : Index) : u.plainClose b n d = none := by
  cases d with
  | calDeclared | fell => exact absurd hd h
  | nothing | gapRun | warm | calIdle | rewarm | trigger => rfl
  | calPending | primary | maxDur | stacked | stackBegin | dead => rfl

/-- An episode ends within the slot write by CAL, or by the OFF test; without the gap-run event, which is a row. -/
theorem plainClose_due (u : TriggerUnit) (b : Band) (n : Index) (cal event : Bool) :
    u.plainClose b n (u.due n cal event) =
      if event = false ∧ u.state = .declared
          ∧ (cal = true ∨ 16 * u.sta < u.profile.off * max (u.frozenLta.getD u.lta) (256 * u.profile.ltaFloor)) then
        some (.close (u.closePart b n (if cal = true then .cal else .fell)))
      else none := by
  by_cases hstate : u.state = .declared
  · simp only [hstate, ← offTest_iff, true_and]
    cases event with
    | true =>
      rw [due_of_gapRun _ _ (by rw [hstate]; decide), if_neg fun h => nomatch h.1]
      rfl
    | false =>
      rw [due_of_declared _ _ hstate]
      cases cal with
      | true => rfl
      | false =>
        cases hoff : u.offTest with
        | true => rfl
        | false =>
          simp only [Bool.false_eq_true, if_false, or_self, and_false]
          split_ifs
          all_goals rfl
  · rw [plainClose_of_not_declared (u.due_finds n cal event) hstate, if_neg fun h => hstate h.2.1]

/-- Settles O27: the staged profile; the case of each unit by its state, taken or left owed; and the CLOSE records in
the order of the units. -/
theorem unitsMoveAtSlotWrites : Obligations.UnitsMoveAtSlotWrites := by
  refine ⟨fun u => ⟨applyStaged_of_none, fun g same hg hsame => ⟨fun h => ?_, fun hon hchanged => ?_⟩⟩, ?_, ?_⟩
  · exact (applyStaged_of_some hg).trans (applyProfile_of_same (h.imp_right hsame.1))
  · exact (applyStaged_of_some hg).trans (applyProfile_of_changed hon (mt hsame.2 hchanged))
  · rintro k r s t i v event b u open_ inUse becomes owes closes howed hlanes ht hi hv hevent hu rfl rfl hbecomes howes
      hcloses
    have hw := writeSlot_units howed hlanes ht hi hv hevent
    have hget : (tickUnits v event s.units).get b = u := by
      rw [tickUnits_get, hu, reading_of_writeSlot ht hi hv]
    have hrow {d : UnitDue} (hd : u.due i r.cal event = d) (h : d.isRow = true) : owes := by
      have hunit := hw.units b
      have hout := hw.owed b
      rw [hget, hd, TriggerUnit.plain, if_pos h] at hunit
      rw [hget, hd, h] at hout
      exact howes.2 ⟨hunit, hout⟩
    have hplain {d : UnitDue} (hd : u.due i r.cal event = d) (h : d.isRow = false) : becomes (u.moved i d) := by
      have hunit := hw.units b
      have hout := hw.owed b
      rw [hget, hd, TriggerUnit.plain, if_neg (by rw [h]; decide)] at hunit
      rw [hget, hd, h] at hout
      exact (hbecomes _).2 ⟨hunit, hout⟩
    have hclosed {c : CloseCause} (hd : u.plainClose b i (u.due i r.cal event) = some (.close (u.closePart b i c))) :
        closes c := by
      refine (hcloses c).2 fun a ha hroom => ?_
      have hrecord := hw.hasRecord (hget.symm ▸ hd) hroom
      rw [hget, TriggerUnit.closePart, ha] at hrecord
      exact hrecord
    refine ⟨fun h => hplain (due_of_off i r.cal h event) rfl,
      fun h he => hrow (he ▸ due_of_gapRun i r.cal h) rfl, fun he => ?_⟩
    subst he
    refine ⟨fun hs hcal hcount => ?_, fun hs h => ?_, fun hs hcal => ?_, fun hs hcal hrewarm => ?_,
      fun hs hcal hrewarm hon => ?_, fun hs hcal hrewarm hon => ?_, fun hs hcal => ?_, fun hs hcal hcount => ?_,
      fun hs hcal hcount => ?_, fun hs hcal => ?_, fun hs hcal hoff => ?_, fun a hs hcal hoff ha => ?_,
      fun hs hcount h => ?_, fun hs h => ?_⟩
    · exact hrow (d := .warm) (by rw [due_of_warming i r.cal hs, if_pos (by simp [hcal, hcount])]) rfl
    · refine hplain (d := .nothing) ?_ rfl
      rw [due_of_warming i r.cal hs, if_neg]
      rcases h with hcal | hcount
      · simp [hcal]
      · simp [Nat.not_le.2 hcount]
    · exact hplain (d := .calIdle) (by rw [due_of_idle i r.cal hs, if_pos hcal]) rfl
    · exact hplain (d := .rewarm) (by rw [due_of_idle i r.cal hs, hcal, if_neg (by decide), if_pos hrewarm]) rfl
    · refine hplain (d := .trigger) ?_ rfl
      rw [due_of_idle i r.cal hs, hcal, hrewarm, if_neg (by decide), if_neg (by decide), if_pos (onTest_iff.2 hon)]
    · refine hplain (d := .nothing) ?_ rfl
      rw [due_of_idle i r.cal hs, hcal, hrewarm, if_neg (by decide), if_neg (by decide),
        if_neg (mt onTest_iff.1 (Nat.not_le.2 hon))]
    · exact hplain (d := .calPending) (by rw [due_of_pending i r.cal hs, if_pos hcal]) rfl
    · exact hrow (d := .primary) (by rw [due_of_pending i r.cal hs, hcal, if_neg (by decide), if_pos hcount]) rfl
    · exact hplain (d := .nothing) (by rw [due_of_pending i r.cal hs, hcal, if_neg (by decide), if_neg hcount]) rfl
    · refine ⟨hplain (d := .calDeclared) (by rw [due_of_declared i r.cal hs, if_pos hcal]) rfl, hclosed ?_⟩
      rw [plainClose_due, if_pos ⟨rfl, hs, .inl hcal⟩, if_pos hcal]
    · refine ⟨hplain (d := .fell) ?_ rfl, hclosed ?_⟩
      · rw [due_of_declared i r.cal hs, hcal, if_neg (by decide), if_pos (offTest_iff.2 hoff)]
      · rw [plainClose_due, if_pos ⟨rfl, hs, .inr hoff⟩, hcal, if_neg (by decide)]
    · have hdue := due_of_declared i r.cal hs
      rw [hcal, if_neg (by decide), if_neg (mt offTest_iff.1 (Nat.not_lt.2 hoff)), ha, Option.getD_some,
        show distance a i = (i - a).toNat from rfl] at hdue
      rw [hcal] at hrow hplain
      refine ⟨fun hlong => hrow (hdue.trans (if_pos hlong)) rfl, fun hshort => ?_⟩
      rw [if_neg (Nat.not_le.2 hshort)] at hdue
      refine ⟨fun t2 ht2 hcount => ?_, fun t2 ht2 hcount => ?_, fun hnone hstack hjump => ?_, fun hnone hstay => ?_⟩
      · exact hrow (hdue.trans (if_pos (by simp [ht2, hcount]))) rfl
      · refine hplain (d := .nothing) ?_ rfl
        rw [hdue, if_neg (by simp [hcount]), if_neg (by simp [ht2])]
      · refine hplain (d := .stackBegin) ?_ rfl
        rw [hdue, if_neg (by simp [hnone]), if_pos (by simp [hnone, hstack, stackedTest_iff.2 hjump])]
      · refine hplain (d := .nothing) ?_ rfl
        rw [hdue, if_neg (by simp [hnone]), if_neg]
        rw [Bool.and_eq_true, Bool.and_eq_true, decide_eq_true_eq, stackedTest_iff]
        rintro ⟨⟨-, hstack⟩, hjump⟩
        rcases hstay with h | h
        · exact Nat.not_lt.2 h hstack
        · exact Nat.not_le.2 h hjump
    · refine hrow (d := .dead) ?_ rfl
      rw [due_of_cooldown i r.cal hs, if_pos]
      rcases h with h | h
      · simp [hcount, h]
      · simp [hcount, h]
    · refine hplain (d := .nothing) ?_ rfl
      rw [due_of_cooldown i r.cal hs, if_neg]
      rcases h with h | ⟨hrewarm, hcal⟩
      · simp [Nat.not_le.2 h]
      · simp [hrewarm, hcal]
  · rintro k r s t handed i v event close howed hlanes ht hi hv hevent hclose rfl
    have hw := writeSlot_units howed hlanes ht hi hv hevent
    have hlist : closesAt (tickUnits v event s.units) i r.cal event = [Band.b0, .b1, .b2].filterMap close := by
      unfold closesAt
      congr 1
      funext b
      rw [plainClose_due, tickUnits_get, reading_of_writeSlot ht hi hv]
      exact (hclose b _ rfl).symm
    rw [← hlist]
    exact ⟨hw.records, hw.nextSerial, hw.nearFullArmed, hw.readers, hw.ports⟩

end Sys2Proof.Machine
end

section
/-! What a resolved window gives besides its onset: the width of the spread as the reach of the admitted candidates
(R107), and the vertical fraction with the phase (R108, R109). -/

namespace Sys2Proof.Machine

/-! ### The spread (R107) -/

theorem bestScored_eq {w : List WindowSlot} (hw : 16 ≤ w.length) :
    bestScored w = (bestCandidate w, score w (bestCandidate w)) := by
  have hne : scores w ≠ [] := List.ne_nil_of_mem (List.mem_map_of_mem (bestCandidate_mem hw))
  obtain ⟨before, x, after, hsplit, hx, -, -⟩ := exists_leastScore_split hne
  have hmem : x ∈ scores w := by simp [hsplit]
  obtain ⟨k, -, rfl⟩ := List.mem_map.1 hmem
  simp [bestCandidate, bestScored, hx]

/-- The admitted candidates: those that score at most the margin above k*. -/
def admitted (w : List WindowSlot) (margin : Nat) : List Nat :=
  (candidates w.length).filter fun k => decide (score w k ≤ score w (bestCandidate w) + margin)

theorem mem_admitted {w : List WindowSlot} {margin k : Nat} :
    k ∈ admitted w margin ↔ k ∈ candidates w.length ∧ score w k ≤ score w (bestCandidate w) + margin := by
  simp [admitted]

theorem bestCandidate_mem_admitted {w : List WindowSlot} (hw : 16 ≤ w.length) (margin : Nat) :
    bestCandidate w ∈ admitted w margin :=
  mem_admitted.2 ⟨bestCandidate_mem hw, Nat.le_add_right _ _⟩

/-- The admitted candidates stand in ascending order, so the width is the last less the first. -/
theorem spreadWidth_eq {w : List WindowSlot} (hw : 16 ≤ w.length) (margin : Nat) (h : admitted w margin ≠ []) :
    spreadWidth w margin = (admitted w margin).getLast h - (admitted w margin).head h := by
  have hscores : (scores w).filter (fun x => decide (x.2 ≤ (bestScored w).2 + margin)) =
      (admitted w margin).map fun k => (k, score w k) := by
    rw [scores, List.filter_map, bestScored_eq hw]
    rfl
  unfold spreadWidth
  dsimp only
  rw [hscores, List.getLastD_eq_getLast?, List.headD_eq_head?_getD, List.getLast?_map, List.head?_map,
    List.getLast?_eq_some_getLast h, List.head?_eq_some_head h]
  rfl

theorem admitted_ascending (w : List WindowSlot) (margin : Nat) : (admitted w margin).Pairwise (· ≤ ·) :=
  ((candidates_ascending w.length).filter _).imp Nat.le_of_lt

/-! ### The vertical fraction (R108) -/

theorem sumVertical_le_sumEnergy {span : List WindowSlot} (h : ∀ x ∈ span, x.vertical.toNat ≤ x.energy.toNat) :
    sumVertical span ≤ sumEnergy span := List.sum_le_sum h

/-- Settles O18: the ends of the ascending list of admitted candidates, the ranges of the classes, and the vertical
fraction as a part of the energy. -/
theorem widthClassAndPhaseFollowTheirRules : Obligations.WidthClassAndPhaseFollowTheirRules := by
  unfold Obligations.WidthClassAndPhaseFollowTheirRules
  refine ⟨?_, ?_, ?_, ?_, ?_⟩
  · intro w margin hw
    have hbest := bestCandidate_mem_admitted hw margin
    have hne : admitted w margin ≠ [] := List.ne_nil_of_mem hbest
    have hasc := admitted_ascending w margin
    obtain ⟨hlo, hloScore⟩ := mem_admitted.1 (List.head_mem hne)
    obtain ⟨hhi, hhiScore⟩ := mem_admitted.1 (List.getLast_mem hne)
    exact ⟨_, _, spreadWidth_eq hw margin hne, (mem_candidates.1 hlo).1, hasc.rel_head hbest, hasc.rel_getLast hbest,
      (mem_candidates.1 hhi).2.1, hloScore, hhiScore, fun k hk8 hkl hk =>
        have hmem : k ∈ admitted w margin := mem_admitted.2 ⟨mem_candidates.2 ⟨hk8, hkl, hw⟩, hk⟩
        ⟨hasc.rel_head hmem, hasc.rel_getLast hmem⟩⟩
  · intro n
    unfold uncertaintyClass
    refine ⟨fun h => ?_, fun h => ?_, fun h => ?_, fun h => ?_⟩
    all_goals split_ifs <;> omega
  · intro span h
    exact if_pos (by simpa using h)
  · intro span hlen henergy hvertical
    refine ⟨_, if_neg (by simp [Nat.not_lt.2 hlen, henergy]), rfl, Nat.div_le_of_le_mul ?_⟩
    rw [Nat.mul_comm]
    exact Nat.mul_le_mul_right _ (sumVertical_le_sumEnergy hvertical)
  · intro f vf hthresh
    refine ⟨rfl, ?_, ?_⟩
    all_goals
      unfold phaseOf
      dsimp only
      split_ifs with hp hs
    · exact iff_of_true rfl hp
    · exact iff_of_false nofun hp
    · exact iff_of_false nofun hp
    · exact iff_of_false nofun (by omega)
    · exact iff_of_true rfl hs
    · exact iff_of_false nofun hs

end Sys2Proof.Machine
end

section
/-! What becomes of requests between their declaration and their resolution: the cut of a truncation (R101 to R104), the
place in the queue (R89), the shed (R90), and the launch examination launch by launch (R91, R92). -/

namespace Sys2Proof.Machine

/-! ### Truncations (R101 to R104) -/

section
variable {r : Request} {b : Band} {t2 : Index}

theorem reached_iff : r.reached b t2 = true ↔
    r.band = b ∧ (t2 = r.windowEnd ∨ earlier t2 r.windowEnd = true) := by
  simp [Request.reached, notLater]

/-- Behind its window start a cut leaves the slots before the truncation. -/
theorem length_cut (h : 1 ≤ (t2 - r.ws).toNat) : (r.cut t2).length = (t2 - r.ws).toNat := by
  show (t2 - BitVec.ofNat 32 1 - r.ws).toNat + 1 = (t2 - r.ws).toNat
  bv_omega

theorem truncate_of_reached (h : r.reached b t2 = true) : r.truncate b t2 = r.cut t2 := if_pos h

theorem truncate_of_not_reached (h : r.reached b t2 ≠ true) : r.truncate b t2 = r := if_neg h

theorem Lane.truncate_waiting (h : r.reached b t2 = true) :
    (Lane.waiting r).truncate b t2 = .scanning (r.cut t2) [] := if_pos h

theorem Lane.truncate_scanning_short {w : List WindowSlot} (h : r.reached b t2 = true)
    (hw : w.length < (t2 - r.ws).toNat) :
    (Lane.scanning r w).truncate b t2 = .scanning (r.cut t2) w := by
  have hlength := length_cut (r := r) (t2 := t2) (by omega)
  exact (if_pos h).trans (if_neg (by omega))

theorem Lane.truncate_scanning_whole {w : List WindowSlot} (h : r.reached b t2 = true)
    (hstart : 1 ≤ (t2 - r.ws).toNat) (hw : (t2 - r.ws).toNat ≤ w.length) :
    (Lane.scanning r w).truncate b t2 = .resolving (r.cut t2) (w.take (t2 - r.ws).toNat) 0 := by
  have hlength := length_cut hstart
  rw [← hlength] at hw ⊢
  exact (if_pos h).trans (if_pos hw)

theorem Lane.truncate_of_not_reached {x : Lane} (hx : x.request = some r) (h : r.reached b t2 ≠ true) :
    x.truncate b t2 = x := by
  cases x with
  | free => rfl
  | waiting q => cases hx; exact if_neg h
  | scanning q w => cases hx; exact if_neg h
  | resolving q w k => rfl

end

/-- Settles O40: the cut, request by request and lane by lane. -/
theorem truncationsCutWindows : Obligations.TruncationsCutWindows := by
  unfold Obligations.TruncationsCutWindows
  intro s b t2 cut reached hcut hreached
  have hcut_eq : cut = fun r => r.cut t2 := funext hcut
  have hreached_iff : ∀ r, r.reached b t2 = true ↔ reached r := fun r => reached_iff.trans (hreached r).symm
  subst hcut_eq
  refine ⟨rfl, List.length_map _, fun i r hi => ⟨fun h => ?_, fun h => ?_⟩, fun l => ⟨?_, ?_, ?_, ?_, ?_⟩⟩
  · show (s.refiner.queue.map (Request.truncate b t2))[i]? = _
    rw [List.getElem?_map, hi, Option.map_some, truncate_of_reached ((hreached_iff r).2 h)]
  · show (s.refiner.queue.map (Request.truncate b t2))[i]? = _
    rw [List.getElem?_map, hi, Option.map_some, truncate_of_not_reached (mt (hreached_iff r).1 h)]
  all_goals rw [truncateBand_lanes]
  · intro r hl h
    rw [hl, Lane.truncate_waiting ((hreached_iff r).2 h)]
  · intro r w hl h hw
    rw [hl, Lane.truncate_scanning_short ((hreached_iff r).2 h) hw]
  · intro r w hl h hstart hw
    rw [hl, Lane.truncate_scanning_whole ((hreached_iff r).2 h) hstart hw]
  · intro r w k hl
    rw [hl, Lane.truncate]
  · intro r hl h
    exact Lane.truncate_of_not_reached hl (mt (hreached_iff r).1 h)

/-! ### The place in the queue, and the shed (R89, R90) -/

theorem enqueue_append {q : Request} {before : List Request} (after : List Request)
    (hbefore : ∀ r ∈ before, earlier q.deadline r.deadline = false)
    (hafter : ∀ r, after.head? = some r → earlier q.deadline r.deadline = true) :
    enqueue q (before ++ after) = before ++ q :: after := by
  induction before with
  | nil =>
    cases after with
    | nil => rfl
    | cons r more => exact if_pos (hafter r rfl)
  | cons r before ih =>
    obtain ⟨hr, hmore⟩ := List.forall_mem_cons.1 hbefore
    rw [List.cons_append, enqueue, hr, if_neg (by decide), ih hmore, List.cons_append]

/-- Settles O42: the place in the queue, or the shed record beside an untouched refiner. -/
theorem handOversEnterByDeadlineOrAreShed : Obligations.HandOversEnterByDeadlineOrAreShed := by
  unfold Obligations.HandOversEnterByDeadlineOrAreShed
  intro q s
  refine ⟨fun before after hqueue hroom hbefore hafter => ?_, fun hfull => ⟨?_, (offerRequest_of_full hfull).1⟩⟩
  · have hoffer : offerRequest q s = launchExamination (s.setQueue (enqueue q s.refiner.queue)) := if_pos hroom
    rw [hoffer, hqueue, enqueue_append after hbefore hafter, State.setQueue]
  · exact if_neg (Nat.not_lt.2 hfull)

/-! ### The launch examination (R91, R92) -/

theorem freeLane_of_lowest {rf : Refiner} {l : LaneId} (hfree : rf.lanes.get l = .free)
    (hlowest : ∀ k, [LaneId.l0, .l1, .l2, .l3].idxOf k < [LaneId.l0, .l1, .l2, .l3].idxOf l →
      rf.lanes.get k ≠ .free) : rf.freeLane = some l := by
  obtain ⟨before, after, hlanes, hbefore⟩ := lanes_split l
  have htaken : before.find? (fun k => decide (rf.lanes.get k = .free)) = none :=
    List.find?_eq_none.2 fun k hk => by simpa using hlowest k (hbefore k hk)
  rw [Refiner.freeLane, hlanes, List.find?_append, htaken, Option.none_or,
    List.find?_cons_of_pos (by simpa using hfree)]

theorem newestIndex_of_newest {s : State} {n : Newest} (h : s.ring.newest = some n) :
    s.newestIndex = some n.index := by rw [State.newestIndex, h]; rfl

/-- The refiner once the head is launched into a lane at a newest index (R91, R92). -/
def State.launchedInto (s : State) (head : Request) (more : List Request) (l : LaneId) (n : Index) : State :=
  { s with refiner :=
    { queue := more
      lanes := s.refiner.lanes.set l (launchedLane head n)
      history := recordLaunch s.settings.station.launches s.refiner.history n } }

section
variable {s : State} {head : Request} {more : List Request} {l : LaneId} {n : Index}

theorem exists_of_launchReady (hready : s.launchReady = true) :
    ∃ l n, s.refiner.freeLane = some l ∧ s.newestIndex = some n := by
  unfold State.launchReady at hready
  split at hready
  · exact ⟨_, _, ‹_›, ‹_›⟩
  · cases hready

/-- A launch, and the examination made again. -/
theorem launchExamination_of_ready (hqueue : s.refiner.queue = head :: more) (hlane : s.refiner.freeLane = some l)
    (hnewest : s.newestIndex = some n) (hready : s.launchReady = true) :
    launchExamination s = launchExamination (s.launchedInto head more l n) := by
  unfold State.launchReady at hready
  rw [hqueue, hlane, hnewest] at hready
  simp only [Bool.and_assoc, Bool.and_eq_true, decide_eq_true_eq] at hready
  obtain ⟨hcore, hgoes⟩ := hready
  have hcore' : (s.launchedInto head more l n).settings.core = .running := hcore
  rw [launchExamination, launchExamination, if_pos hcore, if_pos hcore', hqueue, List.length_cons, launchLoop, hqueue,
    hlane, hnewest]
  exact if_pos (by simpa using hgoes)

end

/-- The examination stops only where nothing can be launched (R92). -/
theorem launchExamination_launchReady (s : State) : (launchExamination s).launchReady = false := by
  cases hready : s.launchReady with
  | false => rwa [launchExamination_of_not_ready hready]
  | true =>
    induction hqueue : s.refiner.queue generalizing s with
    | nil =>
      rw [State.launchReady, hqueue] at hready
      cases hready
    | cons head more ih =>
      obtain ⟨l, n, hlane, hnewest⟩ := exists_of_launchReady hready
      rw [launchExamination_of_ready hqueue hlane hnewest hready]
      cases hnext : (s.launchedInto head more l n).launchReady with
      | false => rwa [launchExamination_of_not_ready hnext]
      | true => exact ih _ hnext rfl

@[simp] theorem launchExamination_launchExamination (s : State) :
    launchExamination (launchExamination s) = launchExamination s :=
  launchExamination_of_not_ready (launchExamination_launchReady s)

/-! ### The steps of a slot write that are still owed (R96) -/

/-- No handling of the list is half taken, so a command of the refiner finishes none. -/
theorem finishList_of_not_begun {s : State} (h : s.owed.list = .retire ∨ s.owed.list = .done) : finishList s = s := by
  unfold finishList
  rcases h with h | h
  all_goals rw [h]

theorem refinerExpiry_of_expiry {s : State} (h : s.owed.refiner = .expiry) :
    refinerExpiry s = (expiryStep s.newestOr s).setOwed { s.owed with refiner := .scanStart } := by
  rw [refinerExpiry, h]

theorem refinerExpiry_of_later {s : State} (h : s.owed.refiner ≠ .expiry) : refinerExpiry s = s := by
  unfold refinerExpiry
  split
  · exact absurd ‹_› h
  all_goals rfl

theorem refinerScanStart_of_scanStart {s : State} (h : s.owed.refiner = .scanStart) :
    refinerScanStart s = (scanStartStep s.newestOr s).setOwed { s.owed with refiner := .launch } := by
  rw [refinerScanStart, refinerExpiry_of_later (by rw [h]; decide), h]

theorem refinerFinish_of_launch {s : State} (h : s.owed.refiner = .launch) :
    refinerFinish s = (launchExamination s).setOwed { s.owed with refiner := .done } := by
  have hscan : refinerScanStart s = s := by
    rw [refinerScanStart, refinerExpiry_of_later (by rw [h]; decide), h]
  rw [refinerFinish, hscan, h]

theorem launchExamination_setOwed (o : Owed) (s : State) :
    launchExamination (s.setOwed o) = (launchExamination s).setOwed o := by
  have hunits : (launchExamination s).units = s.units := (launchExamination_frame s).units
  refine (launchExamination_withUnits s.units o s).trans ?_
  rw [← hunits]
  rfl

/-- Settles O43: one launch at a time while the head can be launched, and nothing where it cannot; LAUNCH makes the
examination once more than the slot write owes, and finds nothing left. -/
theorem launchesTakeTheHead : Obligations.LaunchesTakeTheHead := by
  unfold Obligations.LaunchesTakeTheHead
  refine ⟨fun s => ⟨fun hnothing => ?_, ?_⟩, fun s hlist => ⟨fun howed => ?_, fun howed => ?_⟩⟩
  · refine launchExamination_of_not_ready (Bool.eq_false_iff.2 fun hready => ?_)
    obtain ⟨_, i, -, hnewest⟩ := exists_of_launchReady hready
    obtain ⟨head, more, l, hqueue, hfree, hcore, -⟩ := (State.launchReady_iff hnewest).1 hready
    rcases hnothing with h | h | h | h
    · cases hqueue.symm.trans h
    · exact h l hfree
    · cases hcore.symm.trans h
    · rw [State.newestIndex, h] at hnewest
      cases hnewest
  · rintro n inSpan hn rfl
    have hnewest := newestIndex_of_newest hn
    refine ⟨fun hwithheld => ?_, fun head more hqueue => ⟨fun hwritten => ?_, ?_⟩⟩
    · refine launchExamination_of_not_ready (Bool.eq_false_iff.2 fun hready => ?_)
      obtain ⟨_, _, _, _, _, _, _, _, hgov⟩ := (State.launchReady_iff hnewest).1 hready
      exact absurd ((governorPermits_iff _ _ _).1 hgov) (Nat.not_lt.2 hwithheld)
    · refine launchExamination_of_not_ready (Bool.eq_false_iff.2 fun hready => ?_)
      obtain ⟨_, _, _, hqueue', _, _, hne, hearly, _⟩ := (State.launchReady_iff hnewest).1 hready
      cases hqueue.symm.trans hqueue'
      rcases hwritten with h | h
      · exact hne h
      · exact Bool.false_ne_true (hearly.symm.trans h)
    · intro l hne hearly hcore hfree hlowest hpermits
      have hready : s.launchReady = true := (State.launchReady_iff hnewest).2
        ⟨head, more, l, hqueue, hfree, hcore, hne, hearly, (governorPermits_iff _ _ _).2 hpermits⟩
      rw [launchExamination_of_ready hqueue (freeLane_of_lowest hfree hlowest) hnewest hready, State.launchedInto,
        recordLaunch, recentLaunches, List.length_append]
      rfl
  · show execLaunch s = _
    rw [execLaunch, finishList_of_not_begun hlist, refinerFinish_of_done howed]
  · show execLaunch s = _
    rw [execLaunch, finishList_of_not_begun hlist, refinerFinish_of_launch howed, launchExamination_setOwed,
      launchExamination_launchExamination]

end Sys2Proof.Machine
end

section
/-! The refiner's own events: the expiries with their records handed over one after another (R96 to R98, R113, R115),
the scan starts (R93), and the completion of a resolution with its refined record (R95, R110 to R112). -/

namespace Sys2Proof.Machine

/-! ### Coarse EXPIRED records, one after another (R113, R115) -/

/-- The coarse EXPIRED records of requests handed over in their order. -/
def handExpired (rs : List Request) (s : State) : State := rs.foldl (fun x r => handCoarse false r x) s

/-- The list does not read the refiner. -/
theorem withRefiner_alike (rf : Refiner) : RecordsAlike True fun s t => t = { s with refiner := rf } where
  list h := by rw [h]
  readers h := by rw [h]
  raise n p _ h := by rw [h]; rfl
  setReader p r h := by rw [h]; rfl
  withList l _ h := by rw [h]

theorem handExpired_withRefiner (rs : List Request) (rf : Refiner) (s : State) :
    handExpired rs { s with refiner := rf } = { handExpired rs s with refiner := rf } :=
  RecordsAlike.foldl (R := fun s t => t = { s with refiner := rf }) rs
    (fun r _ _ h => (withRefiner_alike rf).insertRecord r.trigger (fun _ _ => trivial) h) rfl

/-- The requests given have expired: their records are handed over in turn, and beside that the refiner alone
differs. -/
def Expires (rs : List Request) (s t : State) : Prop := ∃ rf : Refiner, t = { handExpired rs s with refiner := rf }

theorem Expires.of_refiner (rs : List Request) (rf : Refiner) (s : State) :
    Expires rs s (handExpired rs { s with refiner := rf }) := ⟨rf, handExpired_withRefiner rs rf s⟩

theorem Expires.trans {rs rs' : List Request} {s t u : State} (h : Expires rs s t) (g : Expires rs' t u) :
    Expires (rs ++ rs') s u := by
  obtain ⟨rf, rfl⟩ := h
  obtain ⟨rf', rfl⟩ := g
  refine ⟨rf', ?_⟩
  rw [handExpired_withRefiner, show handExpired (rs ++ rs') s = handExpired rs' (handExpired rs s) from
    List.foldl_append]

/-- The request of a lane, if it expires at the index written. -/
def Lane.expired (n : Index) (x : Lane) : List Request := x.request.toList.filter (expiresAt n)

theorem Lane.mem_expired {n : Index} {x : Lane} {r : Request} :
    r ∈ x.expired n ↔ x.request = some r ∧ r.deadline = n := by
  simp [Lane.expired, expiresAt]

theorem Lane.length_expired_le (n : Index) (x : Lane) : (x.expired n).length ≤ 1 := by
  refine (List.length_filter_le _ _).trans ?_
  cases x.request <;> simp

theorem expireLane_expires (n : Index) (l : LaneId) (s : State) :
    Expires ((s.refiner.lanes.get l).expired n) s (expireLane n l s) := by
  unfold expireLane Lane.expired
  split
  · rename_i r hr
    rw [hr]
    split
    · rename_i hdue
      rw [Option.toList_some, List.filter_cons_of_pos hdue]
      exact .of_refiner [r] _ s
    · rename_i hdue
      rw [Option.toList_some, List.filter_cons_of_neg hdue]
      exact .of_refiner [] s.refiner s
  · rename_i hr
    rw [hr]
    exact .of_refiner [] s.refiner s

theorem expireQueue_expires (n : Index) (s : State) :
    Expires (s.refiner.queue.filter (expiresAt n)) s (expireQueue n s) := .of_refiner _ _ s

/-- The requests that expire at an index, in the order of R96: by lanes, then by the queue. -/
def Refiner.expired (n : Index) (rf : Refiner) : List Request :=
  (rf.lanes.get .l0).expired n ++ (rf.lanes.get .l1).expired n ++ (rf.lanes.get .l2).expired n
    ++ (rf.lanes.get .l3).expired n ++ rf.queue.filter (expiresAt n)

theorem expireLane_lanes_other (n : Index) {l m : LaneId} (s : State) (h : m ≠ l) :
    (expireLane n l s).refiner.lanes.get m = s.refiner.lanes.get m := by
  rw [expireLane_lanes, if_neg fun hm => h hm.1]

/-- The handling takes each lane, and then the queue, as the slot write found it. -/
theorem expiryStep_expires (n : Index) (s : State) : Expires (s.refiner.expired n) s (expiryStep n s) := by
  have h0 := expireLane_expires n .l0 s
  have h1 := h0.trans (expireLane_expires n .l1 _)
  have h2 := h1.trans (expireLane_expires n .l2 _)
  have h3 := h2.trans (expireLane_expires n .l3 _)
  have hq := h3.trans (expireQueue_expires n _)
  simpa [expireLane_lanes_other, expireLane_queue, Refiner.expired, expiryStep] using hq

theorem expireLane_history (n : Index) (l : LaneId) (s : State) :
    (expireLane n l s).refiner.history = s.refiner.history := by
  unfold expireLane
  split
  · split
    · rw [(handCoarse_frame _ _ _).refiner]
      rfl
    · rfl
  · rfl

theorem expiryStep_history (n : Index) (s : State) : (expiryStep n s).refiner.history = s.refiner.history := by
  rw [expiryStep, expireQueue_refiner]
  simp only [expireLane_history]

theorem Refiner.mem_expired {n : Index} {s : State} {r : Request} (h : s.InFlight r) (hn : r.deadline = n) :
    r ∈ s.refiner.expired n := by
  simp only [Refiner.expired, List.mem_append]
  rcases h with hq | ⟨l, hl⟩
  · exact .inr (List.mem_filter.2 ⟨hq, decide_eq_true hn⟩)
  · have hmem := Lane.mem_expired.2 ⟨hl, hn⟩
    cases l
    all_goals simp [hmem]

theorem Refiner.length_expired_le {s : State} (h : s.RefinerKept) (n : Index) :
    (s.refiner.expired n).length ≤ 10 := by
  have hlane := fun l => Lane.length_expired_le n (s.refiner.lanes.get l)
  have hqueue : (s.refiner.queue.filter (expiresAt n)).length ≤ 6 := (List.length_filter_le _ _).trans h.2
  have h0 := hlane .l0
  have h1 := hlane .l1
  have h2 := hlane .l2
  have h3 := hlane .l3
  simp only [Refiner.expired, List.length_append]
  omega

/-! ### Records handed over well below the near-full mark (R122, R133) -/

/-- Short of the near-full mark an insertion changes the list and nothing else. -/
theorem insertRecord_of_room {s : State} (h : s.list.records.length + 1 < 56) (key : Index) (d : Detail) :
    ∃ l : PickList, insertRecord key d s = { s with list := l } := by
  have hroom : s.list.records.length < Config.listDepth := Nat.lt_trans (by omega) (show 56 < 64 by decide)
  have hevict : evictIfFull s = s := by
    unfold evictIfFull
    split
    · exact if_neg (Nat.not_le.2 hroom)
    · rfl
  have hrise : ∀ t : State, t.list.records.length = s.list.records.length + 1 → nearFullRise t = t := fun t ht => by
    refine if_neg ?_
    rw [ht, show Config.nearFullAt = 56 from rfl, decide_eq_false (by omega), Bool.and_false]
    decide
  unfold insertRecord
  dsimp only
  rw [hevict, if_pos hroom, hrise _ (length_placeRecord _ _)]
  exact ⟨_, rfl⟩

theorem mem_insertRecord {s : State} (h : s.list.records.length < Config.listDepth) (key : Index) (d : Detail)
    {x : Record} (hx : x ∈ s.list.records) : x ∈ (insertRecord key d s).list.records := by
  obtain ⟨new, -, -, hrecords⟩ := insertRecord_records h key d
  rw [hrecords]
  exact mem_placeRecord.2 (.inr hx)

theorem handExpired_of_room {rs : List Request} {s : State} (h : s.list.records.length + rs.length < 56) :
    (∃ l : PickList, handExpired rs s = { s with list := l })
      ∧ (∀ r ∈ rs, (handExpired rs s).HasRecord r.trigger (.onset (coarsePart r false)))
      ∧ ∀ x ∈ s.list.records, x ∈ (handExpired rs s).list.records := by
  induction rs generalizing s with
  | nil => exact ⟨⟨s.list, rfl⟩, nofun, fun _ hx => hx⟩
  | cons r rs ih =>
    rw [List.length_cons] at h
    have hroom : s.list.records.length < Config.listDepth := Nat.lt_trans (by omega) (show 56 < 64 by decide)
    have hlength : (handCoarse false r s).list.records.length = s.list.records.length + 1 :=
      length_insertRecord hroom _ _
    obtain ⟨⟨l, hl⟩, hhas, hkeeps⟩ := ih (s := handCoarse false r s) (by omega)
    obtain ⟨first, hfirst⟩ := insertRecord_of_room (s := s) (by omega) r.trigger (.onset (coarsePart r false))
    refine ⟨⟨l, hl.trans ?_⟩, List.forall_mem_cons.2 ⟨?_, hhas⟩,
      fun x hx => hkeeps x (mem_insertRecord hroom _ _ hx)⟩
    · rw [handCoarse, hfirst]
    · obtain ⟨x, hx, hkey⟩ := insertRecord_hasRecord r.trigger (.onset (coarsePart r false)) s
      exact ⟨x, hkeeps x hx, hkey⟩

/-! ### DEADLINE_EXPIRY and SCAN_START -/

theorem Lane.startScan_of_due {n : Index} {r : Request} (h : r.windowEnd = n) :
    (Lane.waiting r).startScan n = .scanning r [] := if_pos h

/-- Settles O44: the expiries as records handed over in the order of R96 to the list they find, and the scan starts lane
by lane. -/
theorem deadlinesExpireAndScansStart : Obligations.DeadlinesExpireAndScansStart := by
  unfold Obligations.DeadlinesExpireAndScansStart
  intro s n coarse held hn hlist hcoarse hheld
  have hnewest : s.newestOr = n.index := newestOr_of_newest hn
  refine ⟨fun howed => ?_, fun howed => ?_⟩
  · have hexec : exec .deadlineExpiry s =
        .next ((expiryStep n.index s).setOwed { s.owed with refiner := .scanStart }) := by
      show execDeadlineExpiry s = _
      rw [execDeadlineExpiry, finishList_of_not_begun hlist, refinerExpiry_of_expiry howed, hnewest]
    have hrequest : ∀ l, held l = (s.refiner.lanes.get l).request.toList := fun l => by
      rw [hheld]
      cases s.refiner.lanes.get l <;> rfl
    have hexpired : (held .l0 ++ held .l1 ++ held .l2 ++ held .l3 ++ s.refiner.queue).filter
        (fun r => decide (r.deadline = n.index)) = s.refiner.expired n.index := by
      simp only [hrequest, List.filter_append]
      rfl
    have hhanded : (fun x r => insertRecord r.trigger (coarse r) x) = fun x r => handCoarse false r x := by
      funext x r
      rw [hcoarse]
      rfl
    obtain ⟨rf, hstep⟩ := expiryStep_expires n.index s
    refine ⟨_, hexec, ?_, expiryStep_history _ s, ?_, fun l r hl hr => ?_, fun l hl => ?_, fun hkept hroom => ?_⟩
    · rw [hexpired, hhanded, hstep]
      rfl
    · refine (expiryStep_queue n.index s).trans ?_
      simp only [expiresAt, decide_not]
    · exact (expiryStep_lanes n.index l s).trans (if_pos (Lane.expiryDue_iff.2 ⟨r, hl, hr⟩))
    · refine (expiryStep_lanes n.index l s).trans (if_neg fun hdue => ?_)
      obtain ⟨r, hr, hd⟩ := Lane.expiryDue_iff.1 hdue
      exact hl r hr hd
    · have hlength := Refiner.length_expired_le hkept n.index
      obtain ⟨⟨l, hl⟩, hhas, hkeeps⟩ :=
        handExpired_of_room (rs := s.refiner.expired n.index) (s := s) (by omega)
      have hrecords : (expiryStep n.index s).list = (handExpired (s.refiner.expired n.index) s).list := by rw [hstep]
      refine ⟨?_, fun r hr hd => ?_, fun x hx => ?_⟩
      · rw [hstep, hl]
        rfl
      · rw [State.setOwed_hasRecord, State.HasRecord, hrecords, hcoarse]
        exact hhas r (Refiner.mem_expired hr hd)
      · rw [State.setOwed_list, hrecords]
        exact hkeeps x hx
  · have hexec : exec .scanStart s = .next ((scanStartStep n.index s).setOwed { s.owed with refiner := .launch }) := by
      show execScanStart s = _
      rw [execScanStart, finishList_of_not_begun hlist, refinerScanStart_of_scanStart howed, hnewest]
    refine ⟨_, hexec, rfl, fun l r hl hend => ?_, fun l hl => ?_⟩
    · refine (scanStartStep_lanes n.index l s).trans ?_
      rw [hl, Lane.startScan_of_due hend]
    · refine (scanStartStep_lanes n.index l s).trans (Lane.startScan_of_not_due (Bool.eq_false_iff.2 fun hdue => ?_))
      obtain ⟨r, hr, hend⟩ := Lane.scanDue_iff.1 hdue
      exact hl r hr hend

/-! ### RESOLUTION_COMPLETION (R95, R110 to R112) -/

theorem largest_eq_max {xs : List Nat} (h : xs ≠ []) : largest xs = xs.max h := by
  cases xs with
  | nil => contradiction
  | cons x xs =>
    show xs.foldl max (max 0 x) = _
    rw [Nat.zero_max]
    rfl

theorem le_largest {xs : List Nat} {x : Nat} (h : x ∈ xs) : x ≤ largest xs := by
  rw [largest_eq_max (List.ne_nil_of_mem h)]
  exact List.le_max_of_mem h

theorem largest_mem {xs : List Nat} (h : xs ≠ []) : largest xs ∈ xs := by
  rw [largest_eq_max h]
  exact List.max_mem h

/-- The largest of the values of a list's members bounds each, and is one of them (R110). -/
theorem largest_map_of_mem {α : Type} (f : α → Nat) {xs : List α} {x : α} (h : x ∈ xs) :
    f x ≤ largest (xs.map f) := le_largest (List.mem_map_of_mem h)

theorem exists_eq_largest_map {α : Type} (f : α → Nat) {xs : List α} (h : xs ≠ []) :
    ∃ x ∈ xs, f x = largest (xs.map f) := List.mem_map.1 (largest_mem (by simpa using h))

section
variable {s : State} {l : LaneId}

theorem completeLane_of_resolving {r : Request} {w : List WindowSlot} {k : Nat}
    (h : s.refiner.lanes.get l = .resolving r w k) :
    completeLane l s =
      launchExamination (insertRecord (refinedKey r w) (.onset (refinedPart r w)) (s.setLane l .free)) := by
  rw [completeLane, h]

theorem completeLane_of_not_resolving (h : ∀ r w k, s.refiner.lanes.get l ≠ .resolving r w k) :
    completeLane l s = s := by
  unfold completeLane
  split
  · exact absurd ‹_› (h _ _ _)
  all_goals rfl

theorem exec_resolutionCompletion (s : State) (l : LaneId) :
    exec (.resolutionCompletion l) s = .next (completeLane l (settleOwed s)) := rfl

end

/-- Settles O46: the refined record of a lane that resolves, and the examination that follows. -/
theorem resolutionsHandOverRefinedRecords : Obligations.ResolutionsHandOverRefinedRecords := by
  unfold Obligations.ResolutionsHandOverRefinedRecords
  refine ⟨fun s l => ?_, fun s l howed => ⟨?_, fun hl => ?_⟩⟩
  · rw [exec_resolutionCompletion, settleOwed_settleOwed, exec_resolutionCompletion]
  · rintro r w k vf hl rfl
    have hframe := completeLane_frame l s
    have hdone := completeLane_of_resolving hl
    refine ⟨completeLane l s, (peakEnergies (onsetSpan w r.fields.ampLen)).1,
      (peakEnergies (onsetSpan w r.fields.ampLen)).2, refinedPart r w, ?_, rfl, hdone, ?_, ?_, ?_, ?_, ?_⟩
    · rw [exec_resolutionCompletion, settleOwed_of_nothing howed]
    · rw [hdone, State.HasRecord, (launchExamination_list _).1]
      exact insertRecord_hasRecord _ _ _
    · exact fun x hx => ⟨largest_map_of_mem (fun x : WindowSlot => x.vertical.toNat) hx,
        largest_map_of_mem (fun x : WindowSlot => x.energy.toNat - x.vertical.toNat) hx⟩
    · exact fun hspan => ⟨exists_eq_largest_map _ hspan, exists_eq_largest_map _ hspan⟩
    · rw [hdone]
      exact launchExamination_launchReady _
    · exact ⟨hframe.toOnlyUnits.sameCore s.owed, hframe.tmu, hframe.units, hframe.owed⟩
  · rw [exec_resolutionCompletion, settleOwed_of_nothing howed, completeLane_of_not_resolving hl]

end Sys2Proof.Machine
end

section
/-! Port commands between the events of a slot write (R175, R188): every transaction as a request at its port, what the
requests that settle nothing leave untouched, and settling before or within a transaction. -/

namespace Sys2Proof.Machine

/-! ### Every transaction is a request at its port (R172, R174) -/

theorem length_requestBits (code : Byte) (rest : List Bool) : (requestBits code rest).length = requestClocks rest := by
  rw [requestBits, List.length_append]
  rfl

/-- What a command does that is a transaction of a number of bits on a port: it is refused as another row's, or it is a
request that settles nothing, or one of the four that settle what is owed first. -/
inductive Transaction (c : Instr) (p : Port) (clocks : Nat) : Prop
  | refused (x : Refusal) (hc : c.wellFormed = false) (h : ∀ s, exec c s = .refused x)
  | request (body : State → State × Response) (hbody : RequestBody body)
    (h : ∀ s, exec c s = .next (transact p clocks body s))
  | settling (body : State → State × Response) (rest : List Bool)
    (hc : c = .setProfile p rest ∨ c = .setStation p rest ∨ c = .start p rest ∨ c = .stop p rest)
    (h : ∀ s, exec c s = .next (transact p clocks body s))

theorem Transaction.of_request {c : Instr} {p : Port} {clocks : Nat}
    (h : ∃ body, RequestBody body ∧ ∀ s, exec c s = .next (transact p clocks body s)) :
    Transaction c p clocks := by
  obtain ⟨body, hbody, h⟩ := h
  exact .request body hbody h

section
variable (p : Port) (rest : List Bool)

theorem attachUnknownMode_transaction : Transaction (.attachUnknownMode p rest) p (requestClocks rest) := by
  cases hb : wholeBytes rest with
  | nil =>
    refine .request _ (.answer fun _ => .short codeAttach) fun s => ?_
    show execAttachUnknownMode p rest s = _
    rw [execAttachUnknownMode, hb]
  | cons mode more =>
    by_cases hmode : mode = modeAll ∨ mode = modeFromNow
    · refine .refused (.illFormed "ATTACH_UNKNOWN_MODE") ?_ fun s => ?_
      · show Instr.modeNamesNothing rest = false
        rw [Instr.modeNamesNothing, hb]
        rcases hmode with rfl | rfl <;> rfl
      · show execAttachUnknownMode p rest s = _
        rw [execAttachUnknownMode, hb]
        exact if_pos hmode
    · refine .request _ (.answer fun _ => .badParam) fun s => ?_
      show execAttachUnknownMode p rest s = _
      rw [execAttachUnknownMode, hb]
      exact if_neg hmode

theorem unknownRequest_transaction (code : Byte) :
    Transaction (.unknownRequest p code rest) p (requestClocks rest) := by
  by_cases hcode : requestCodes.contains code = true
  · exact .refused _ (congrArg not hcode) fun s => if_pos hcode
  · exact .request _ (.answer fun _ => .unknown code) fun s => if_neg hcode

theorem emptyTransaction_transaction : Transaction (.emptyTransaction p rest) p rest.length := by
  by_cases hbits : rest.length < 8
  · exact .request _ (.answer fun t => (t.ports.get p).response) fun s => if_pos hbits
  · exact .refused _ (decide_eq_false hbits) fun s => if_neg hbits

theorem confirm_transaction : Transaction (.confirm p rest) p (requestClocks rest) := by
  refine .of_request ?_
  show ∃ body, RequestBody body ∧ ∀ s, execConfirm p rest s = _
  unfold execConfirm
  split
  · exact ⟨_, .confirm p _, fun _ => rfl⟩
  · exact ⟨_, .answer _, fun _ => rfl⟩

theorem fetch_transaction : Transaction (.fetch p rest) p (requestClocks rest) := by
  refine .of_request ?_
  show ∃ body, RequestBody body ∧ ∀ s, execFetch p rest s = _
  unfold execFetch
  split
  · exact ⟨_, .fetch p _ _ _, fun _ => rfl⟩
  · exact ⟨_, .answer _, fun _ => rfl⟩

theorem getProfile_transaction : Transaction (.getProfile p rest) p (requestClocks rest) := by
  refine .of_request ?_
  show ∃ body, RequestBody body ∧ ∀ s, execGetProfile p rest s = _
  unfold execGetProfile
  split
  · exact ⟨_, .getProfile _, fun _ => rfl⟩
  · exact ⟨_, .answer _, fun _ => rfl⟩

theorem setPort_transaction : Transaction (.setPort p rest) p (requestClocks rest) := by
  refine .of_request ?_
  show ∃ body, RequestBody body ∧ ∀ s, execSetPort p rest s = _
  unfold execSetPort
  split
  · exact ⟨_, .setPort p _ _, fun _ => rfl⟩
  · exact ⟨_, .answer _, fun _ => rfl⟩

/-- A request that carries enough bits for some bytes has them whole. -/
theorem le_length_wholeBytes {n : Nat} {bits : List Bool} (h : 8 * n ≤ bits.length) :
    n ≤ (wholeBytes bits).length := by
  induction n generalizing bits with
  | zero => exact Nat.zero_le _
  | succ n ih =>
    match bits with
    | b7 :: b6 :: b5 :: b4 :: b3 :: b2 :: b1 :: b0 :: more =>
      simp only [List.length_cons] at h
      rw [wholeBytes, List.length_cons]
      exact Nat.succ_le_succ (ih (by omega))
    | [] | [_] | [_, _] | [_, _, _] | [_, _, _, _] | [_, _, _, _, _] | [_, _, _, _, _, _] | [_, _, _, _, _, _, _] =>
      simp only [List.length_cons, List.length_nil] at h
      omega

/-- SET PROFILE with all its bytes runs behind what is owed; a shorter one is answered SHORT. -/
theorem exec_setProfile_transact :
    (∃ b written, ∀ s, exec (.setProfile p rest) s =
        .next (transact p (requestClocks rest) (fun t => setProfileBody p b written (settleOwed t)) s))
      ∨ rest.length < 312 ∧ ∀ s, exec (.setProfile p rest) s =
        .next (transact p (requestClocks rest) (fun t => (t, .short codeSetProfile)) s) := by
  have hexec : ∀ s, exec (.setProfile p rest) s = execSetProfile p rest s := fun _ => rfl
  have hbytes : 312 ≤ rest.length → 39 ≤ (wholeBytes rest).length := le_length_wholeBytes (n := 39)
  simp only [hexec]
  unfold execSetProfile
  split
  · rename_i band fields hwhole
    rw [hwhole, List.length_cons] at hbytes
    split
    · exact .inr ⟨by omega, fun _ => rfl⟩
    · exact .inl ⟨_, _, fun _ => rfl⟩
  · rename_i hwhole
    rw [hwhole] at hbytes
    exact .inr ⟨Nat.lt_of_not_le fun h => absurd (hbytes h) (by decide), fun _ => rfl⟩

theorem setProfile_transaction : Transaction (.setProfile p rest) p (requestClocks rest) := by
  rcases exec_setProfile_transact p rest with ⟨_, _, h⟩ | ⟨-, h⟩
  all_goals exact .settling _ rest (.inl rfl) h

theorem setStation_transaction : Transaction (.setStation p rest) p (requestClocks rest) := by
  have hexec : ∃ body, ∀ s, execSetStation p rest s = .next (transact p (requestClocks rest) body s) := by
    unfold execSetStation
    dsimp only
    split
    all_goals exact ⟨_, fun _ => rfl⟩
  obtain ⟨_, h⟩ := hexec
  exact .settling _ rest (.inr (.inl rfl)) h

end

/-- A transaction's bits are its first byte and those after it. -/
theorem Transaction.of_bits {c : Instr} {p : Port} {code : Byte} {rest : List Bool}
    (h : Transaction c p (requestClocks rest)) : Transaction c p (requestBits code rest).length := by
  rwa [length_requestBits]

/-- Row by row: a transaction is refused, or a request at its port under its own clocks. -/
theorem transaction_of_encode {c : Instr} {p : Port} {bits : List Bool} (h : encodeTransaction c = some (p, bits)) :
    Transaction c p bits.length := by
  cases c with
  | identify q rest =>
    cases h
    exact .of_bits (.request _ (.identify p) fun _ => rfl)
  | status q rest =>
    cases h
    exact .of_bits (.request _ (.answer _) fun _ => rfl)
  | attachAll q rest =>
    cases h
    rw [length_requestBits, requestClocks, length_requestBits]
    exact .request _ (.attach p false) fun _ => rfl
  | attachFromNow q rest =>
    cases h
    rw [length_requestBits, requestClocks, length_requestBits]
    exact .request _ (.attach p true) fun _ => rfl
  | attachUnknownMode q rest =>
    cases h
    exact .of_bits (attachUnknownMode_transaction p rest)
  | detach q rest =>
    cases h
    exact .of_bits (.request _ (.detach p) fun _ => rfl)
  | take q rest =>
    cases h
    exact .of_bits (.request _ (.take p) fun _ => rfl)
  | confirm q rest =>
    cases h
    exact .of_bits (confirm_transaction p rest)
  | rewind q rest =>
    cases h
    exact .of_bits (.request _ (.rewind p) fun _ => rfl)
  | fetch q rest =>
    cases h
    exact .of_bits (fetch_transaction p rest)
  | readFetch q rest =>
    cases h
    exact .of_bits (.request _ (.readFetch p) fun _ => rfl)
  | getProfile q rest =>
    cases h
    exact .of_bits (getProfile_transaction p rest)
  | setProfile q rest =>
    cases h
    exact .of_bits (setProfile_transaction p rest)
  | getStation q rest =>
    cases h
    exact .of_bits (.request _ (.answer _) fun _ => rfl)
  | setStation q rest =>
    cases h
    exact .of_bits (setStation_transaction p rest)
  | setPort q rest =>
    cases h
    exact .of_bits (setPort_transaction p rest)
  | start q rest =>
    cases h
    exact .of_bits (.settling _ rest (.inr (.inr (.inl rfl))) fun _ => rfl)
  | stop q rest =>
    cases h
    exact .of_bits (.settling _ rest (.inr (.inr (.inr rfl))) fun _ => rfl)
  | getAnchor q rest =>
    cases h
    exact .of_bits (.request _ (.answer _) fun _ => rfl)
  | portReset q rest =>
    cases h
    exact .of_bits (.request _ (.portReset p) fun _ => rfl)
  | unknownRequest q code rest =>
    cases h
    exact .of_bits (unknownRequest_transaction p rest code)
  | emptyTransaction q rest =>
    cases h
    exact emptyTransaction_transaction p bits
  | powerOn | reset | frame | assemblyTimerExpiry | linkTimerExpiry | gapSlotTimerExpiry | timeMark | gapRunEvent
    | watchExpiry | holdoverExpiry | warmCountExpiry | primaryDeclaration | stackedDeclaration | maxDurExpiry
    | deadCountExpiry | launch | scanStart | readGrant | resolutionCompletion | deadlineExpiry | release | retirement
    | lockedOutSelect | byteDelivered => cases h

theorem Transaction.refused_or_next {c : Instr} {p : Port} {clocks : Nat} (h : Transaction c p clocks) :
    (∃ x, c.wellFormed = false ∧ ∀ s, exec c s = .refused x)
      ∨ ∃ body, ∀ s, exec c s = .next (transact p clocks body s) := by
  rcases h with ⟨x, hc, h⟩ | ⟨body, -, h⟩ | ⟨body, _, -, h⟩
  · exact .inl ⟨x, hc, h⟩
  · exact .inr ⟨body, h⟩
  · exact .inr ⟨body, h⟩

/-- What the parts of a transaction keep, a transaction keeps. -/
theorem transact_keeps (R : State → State → Prop) (htrans : ∀ {s t u}, R s t → R t u → R s u)
    (hport : ∀ p i s, R s (s.setPort p i)) {body : State → State × Response} (hbody : ∀ t, R t (body t).1)
    {s : State} (hbegun : R s (finishBegun s)) (p : Port) (clocks : Nat) : R s (transact p clocks body s) := by
  unfold transact
  split
  · exact hport p _ s
  · exact htrans (htrans (htrans hbegun (hport p _ _)) (hbody _)) (hport p _ _)

/-! ### What a request that settles nothing leaves untouched -/

/-- All that the events of a slot write rest on is as before: at most the list, the readers, the ports and the order of
the fetch engines differ. -/
structure BetweenEvents (s t : State) : Prop where
  owed : t.owed = s.owed
  intake : t.intake = s.intake
  now : t.clock.now = s.clock.now
  grantFrom : t.clock.grantFrom = s.clock.grantFrom
  ring : t.ring = s.ring
  tmu : t.tmu = s.tmu
  filters : t.filters = s.filters
  units : t.units = s.units
  refiner : t.refiner = s.refiner
  settings : t.settings = s.settings

theorem BetweenEvents.refl (s : State) : BetweenEvents s s := ⟨rfl, rfl, rfl, rfl, rfl, rfl, rfl, rfl, rfl, rfl⟩

theorem BetweenEvents.trans {s t u : State} (h : BetweenEvents s t) (g : BetweenEvents t u) : BetweenEvents s u :=
  ⟨g.owed.trans h.owed, g.intake.trans h.intake, g.now.trans h.now, g.grantFrom.trans h.grantFrom,
    g.ring.trans h.ring, g.tmu.trans h.tmu, g.filters.trans h.filters, g.units.trans h.units, g.refiner.trans h.refiner,
    g.settings.trans h.settings⟩

theorem OnlyRecords.betweenEvents {s t : State} (h : OnlyRecords s t) : BetweenEvents s t :=
  ⟨h.owed, h.intake, by rw [h.clock], by rw [h.clock], h.ring, h.tmu, h.filters, h.units, h.refiner, h.settings⟩

theorem setPort_betweenEvents (p : Port) (i : PortInterface) (s : State) : BetweenEvents s (s.setPort p i) :=
  ⟨rfl, rfl, rfl, rfl, rfl, rfl, rfl, rfl, rfl, rfl⟩

theorem withFillOrder_betweenEvents (order : List Port) (s : State) :
    BetweenEvents s { s with clock := { s.clock with fillOrder := order } } :=
  ⟨rfl, rfl, rfl, rfl, rfl, rfl, rfl, rfl, rfl, rfl⟩

/-- The bodies of the requests that settle nothing reach the records, the readers, the ports and the fetch engines. -/
theorem requestBody_betweenEvents {body : State → State × Response} (h : RequestBody body) (s : State) :
    BetweenEvents s (body s).1 := by
  cases h with
  | answer r => exact .refl s
  | identify p =>
    unfold identifyBody
    dsimp only
    split
    · exact .refl s
    · exact setPort_betweenEvents p _ s
  | attach p fromNow => exact (attachReader_frame p fromNow s).betweenEvents
  | detach p =>
    unfold detachBody
    split
    · exact (detachReader_frame p s).betweenEvents
    · exact .refl s
  | take p =>
    unfold takeBody
    dsimp only
    split_ifs
    · exact .refl s
    · exact .refl s
    · split
      · exact .refl s
      · exact (deliver_frame p _ s).betweenEvents
  | confirm p v =>
    unfold confirmBody
    dsimp only
    split_ifs
    · exact .refl s
    · exact .refl s
    · exact (confirmUpTo_frame p v s).betweenEvents
  | rewind p =>
    unfold rewindBody
    dsimp only
    split_ifs
    · exact .refl s
    · exact .refl s
    · exact ((setReader_frame p _ s).trans (evaluateBacklog_frame p _)).betweenEvents
  | fetch p start count mask =>
    unfold fetchBody
    split
    · exact .refl s
    · split
      · exact .refl s
      · split_ifs
        · exact .refl s
        · exact .refl s
        · exact .refl s
        · exact (setPort_betweenEvents p _ s).trans (withFillOrder_betweenEvents _ _)
  | readFetch p =>
    unfold readFetchBody
    dsimp only
    split
    · exact .refl s
    · split
      · exact .refl s
      · exact setPort_betweenEvents p _ s
    · split <;> exact setPort_betweenEvents p _ s
  | getProfile b => cases b <;> exact .refl s
  | setPort p threshold mask =>
    exact (setPort_betweenEvents p _ s).trans
      ((setReader_frame p _ _).trans (evaluateBacklog_frame p _)).betweenEvents
  | portReset p =>
    have hdetached := (detachReader_frame p s).betweenEvents
    exact { hdetached with now := rfl, grantFrom := rfl }

/-! ### What SET PROFILE, START and STOP leave untouched -/

/-- Frame Intake, the clock and the ring are as before. -/
def SameInstant (s t : State) : Prop := t.intake = s.intake ∧ t.clock = s.clock ∧ t.ring = s.ring

theorem SameInstant.trans {s t u : State} (h : SameInstant s t) (g : SameInstant t u) : SameInstant s u :=
  ⟨g.1.trans h.1, g.2.1.trans h.2.1, g.2.2.trans h.2.2⟩

theorem OnlySettled.sameInstant {s t : State} (h : OnlySettled s t) : SameInstant s t := ⟨h.intake, h.clock, h.ring⟩

theorem setPort_sameInstant (p : Port) (i : PortInterface) (s : State) : SameInstant s (s.setPort p i) :=
  ⟨rfl, rfl, rfl⟩

theorem setProfileBody_sameInstant (p : Port) (b : Option Band) (written : Profile) (s : State) :
    SameInstant s (setProfileBody p b written s).1 := by
  cases b <;> exact ⟨rfl, rfl, rfl⟩

theorem startBody_sameInstant (s : State) : SameInstant s (startBody s).1 := by
  unfold startBody
  split <;> exact ⟨rfl, rfl, rfl⟩

theorem stopBody_sameInstant (s : State) : SameInstant s (stopBody s).1 := by
  unfold stopBody
  split <;> exact ⟨rfl, rfl, rfl⟩

theorem transact_sameInstant {body : State → State × Response} (hbody : ∀ t, SameInstant t (body t).1) (p : Port)
    (clocks : Nat) (s : State) : SameInstant s (transact p clocks body s) :=
  transact_keeps SameInstant SameInstant.trans setPort_sameInstant hbody (finishBegun_frame s).sameInstant p clocks

/-- What a transaction settles first keeps the instant, so it keeps it where the rest of its body does. -/
theorem transact_settleOwed_sameInstant {body : State → State × Response} (hbody : ∀ t, SameInstant t (body t).1)
    (p : Port) (clocks : Nat) (s : State) : SameInstant s (transact p clocks (fun t => body (settleOwed t)) s) :=
  transact_sameInstant (fun t => (settleOwed_frame t).sameInstant.trans (hbody _)) p clocks s

/-! ### Settling before a transaction (R82, R83, R163) -/

/-- The transaction's opening, put before or after the work, comes to the same. -/
theorem openTransaction_alike (p : Port) (clocks : Nat) : Alike True fun s t => t = openTransaction p clocks s where
  list h := by rw [h]; rfl
  readers h := by rw [h]; rfl
  raise n q _ h := by
    rw [h]
    cases p <;> cases q <;> rfl
  setReader q x h := by rw [h]; rfl
  withList l _ h := by rw [h]; rfl
  same h := ⟨_, h⟩
  rest {s s' t} h _ _ hports := by
    rw [h]
    show s'.setPorts (s.ports.set p _) = _
    rw [← hports]
    rfl

/-- A relation of states that judging a frame and writing its slots keeps: the states agree on Frame Intake, the instant
and the settings, and every slot write keeps it. -/
structure FramesAlike (R : State → State → Prop) : Prop where
  intake : ∀ {s t : State}, R s t → t.intake = s.intake
  now : ∀ {s t : State}, R s t → t.clock.now = s.clock.now
  settings : ∀ {s t : State}, R s t → t.settings = s.settings
  setIntake : ∀ {s t : State} (f : FrameIntake), R s t → R (s.setIntake f) (t.setIntake f)
  write : ∀ {s t : State} (k : SlotKind) (r : Reading), R s t → R (writeSlot k r s) (writeSlot k r t)
  /-- The link's recovery is recorded behind the slot write it makes (R19). -/
  record : ∀ {s t : State} (x : IntakeType) (k : SlotKind) (r : Reading), R s t →
    R (intakeRecord x (writeSlot k r s)) (intakeRecord x (writeSlot k r t))
  settleOwed : ∀ {s t : State}, R s t → R (settleOwed s) (settleOwed t)

section
variable {R : State → State → Prop} {s t : State}

theorem Alike.framesAlike (h : Alike True R) : FramesAlike R where
  intake hst := by obtain ⟨q, rfl⟩ := h.same hst; rfl
  now hst := by obtain ⟨q, rfl⟩ := h.same hst; rfl
  settings hst := by obtain ⟨q, rfl⟩ := h.same hst; rfl
  setIntake f hst := h.setIntake f hst
  write k r hst := h.writeSlot k r hst
  record {s t} x k r hst := by
    have hwritten := h.writeSlot k r hst
    obtain ⟨q, hq⟩ := h.same hwritten
    have hnewest : (Machine.writeSlot k r t).newestOr = (Machine.writeSlot k r s).newestOr := by
      rw [hq, State.setPorts_newestOr]
    rw [intakeRecord, intakeRecord, hnewest]
    exact h.raiseBoth .intake (fun _ => trivial) (h.insertRecord _ (fun _ _ => trivial) hwritten)
  settleOwed hst := h.settleOwed hst

theorem FramesAlike.writeGap (h : FramesAlike R) (hst : R s t) : R (writeGap s) (writeGap t) := by
  unfold Machine.writeGap State.lastReading
  rw [h.intake hst]
  exact h.write _ _ hst

theorem FramesAlike.writeGood (h : FramesAlike R) (r : Reading) (hst : R s t) : R (writeGood r s) (writeGood r t) := by
  unfold Machine.writeGood
  rw [h.intake hst]
  exact h.write _ _ (h.setIntake _ hst)

theorem FramesAlike.writeHeld (h : FramesAlike R) (hst : R s t) : R (writeHeld s) (writeHeld t) := by
  unfold Machine.writeHeld
  rw [h.intake hst]
  split
  · exact hst
  · exact h.writeGood _ (h.setIntake _ hst)
  · exact h.writeGap (h.setIntake _ hst)

theorem FramesAlike.finishFrame (h : FramesAlike R) (hst : R s t) : R (finishFrame s) (finishFrame t) := by
  have hslots : ∀ (n : Nat) {s t : State}, R s t → R (writeHeldSlots n s) (writeHeldSlots n t) := by
    intro n
    induction n with
    | zero => exact id
    | succ n ih => exact fun hst => ih (h.writeHeld hst)
  unfold Machine.finishFrame State.slotsInHand
  rw [h.intake hst]
  exact hslots _ hst

theorem FramesAlike.goodFrame (h : FramesAlike R) (g : GoodFrame) (hst : R s t) :
    R (goodFrame g s) (goodFrame g t) := by
  unfold Machine.goodFrame State.interval
  rw [h.intake hst, h.now hst, h.settings hst]
  dsimp only
  split
  · exact h.writeGood _ (h.setIntake _ hst)
  · split
    · exact hst
    · exact h.setIntake _ hst
  · exact h.record _ _ _ (h.setIntake _ (h.setIntake _ hst))

theorem FramesAlike.damagedFrame (h : FramesAlike R) (hst : R s t) : R (damagedFrame s) (damagedFrame t) := by
  unfold Machine.damagedFrame State.lastReading
  rw [h.intake hst]
  split
  · exact hst
  · exact h.write _ _ (h.setIntake _ hst)
  · exact hst

theorem FramesAlike.judge (h : FramesAlike R) (bytes : List LinkByte) (hst : R s t) :
    R (judge bytes s) (judge bytes t) := by
  unfold Machine.judge
  rw [h.intake hst]
  dsimp only
  split
  · exact h.goodFrame _ (h.setIntake _ hst)
  · exact h.damagedFrame (h.setIntake _ hst)

theorem FramesAlike.judgeComplete (h : FramesAlike R) (hst : R s t) : R (judgeComplete s) (judgeComplete t) := by
  unfold Machine.judgeComplete
  rw [h.intake hst]
  split
  · exact h.judge _ (h.finishFrame hst)
  · exact hst

theorem FramesAlike.settle (h : FramesAlike R) (hst : R s t) : R (settle s) (settle t) :=
  h.settleOwed (h.finishFrame (h.judgeComplete hst))

end

/-! ### A begun handling finished before settling or by it -/

theorem refinerFinish_of_scanStart {s : State} (h : s.owed.refiner = .scanStart) :
    refinerFinish s = (launchExamination (scanStartStep s.newestOr s)).setOwed { s.owed with refiner := .done } := by
  rw [refinerFinish, refinerScanStart_of_scanStart h]
  dsimp only [State.setOwed_owed]
  rw [launchExamination_setOwed]
  rfl

theorem listFinish_of_release {s : State} (h : s.owed.list = .release) :
    listFinish s = (releaseRecords s.newestOr s).setOwed { s.owed with list := .done } := by
  have hretire : listRetire s = s := by rw [listRetire, h]
  rw [listFinish, hretire, h]

/-- The list does not read Frame Intake. -/
theorem setIntake_alike (f : FrameIntake) : RecordsAlike True fun s t => t = s.setIntake f where
  list h := by rw [h]; rfl
  readers h := by rw [h]; rfl
  raise n p _ h := by rw [h]; rfl
  setReader p r h := by rw [h]; rfl
  withList l _ h := by rw [h]; rfl

theorem State.setIntake_newestIndex (s : State) (f : FrameIntake) : (s.setIntake f).newestIndex = s.newestIndex := rfl

section
variable (f : FrameIntake)

theorem launchLoop_setIntake (fuel : Nat) (s : State) :
    launchLoop fuel (s.setIntake f) = (launchLoop fuel s).setIntake f := by
  induction fuel generalizing s with
  | zero => rfl
  | succ fuel ih =>
    unfold launchLoop
    rw [State.setIntake_refiner, State.setIntake_settings, State.setIntake_newestIndex]
    split
    · split
      · exact ih { s with refiner := _ }
      · rfl
    · rfl

theorem launchExamination_setIntake (s : State) :
    launchExamination (s.setIntake f) = (launchExamination s).setIntake f := by
  unfold launchExamination
  rw [State.setIntake_refiner, State.setIntake_settings]
  split
  · exact launchLoop_setIntake f _ s
  · rfl

theorem finishRefiner_setIntake (s : State) : finishRefiner (s.setIntake f) = (finishRefiner s).setIntake f := by
  unfold finishRefiner
  rw [State.setIntake_owed]
  split
  · rename_i h
    rw [refinerFinish_of_scanStart h, refinerFinish_of_scanStart (s := s.setIntake f) h]
    exact congrArg (State.setOwed · _) (launchExamination_setIntake f (scanStartStep s.newestOr s))
  · rename_i h
    rw [refinerFinish_of_launch h, refinerFinish_of_launch (s := s.setIntake f) h, launchExamination_setIntake]
    rfl
  all_goals rfl

theorem finishList_setIntake (s : State) : finishList (s.setIntake f) = (finishList s).setIntake f := by
  unfold finishList
  rw [State.setIntake_owed]
  split
  · rename_i h
    rw [listFinish_of_release h, listFinish_of_release (s := s.setIntake f) h]
    exact congrArg (State.setOwed · _) ((setIntake_alike f).releaseRecords s.newestOr rfl)
  all_goals rfl

theorem finishBegun_setIntake (s : State) : finishBegun (s.setIntake f) = (finishBegun s).setIntake f := by
  rw [finishBegun_eq, finishBegun_eq, finishRefiner_setIntake, finishList_setIntake]

end

theorem settleOwed_finishBegun (s : State) : settleOwed (finishBegun s) = settleOwed s := by
  unfold settleOwed
  rw [finishBegun_finishBegun]

theorem writeSlot_finishBegun (k : SlotKind) (r : Reading) (s : State) :
    writeSlot k r (finishBegun s) = writeSlot k r s := by
  unfold writeSlot
  rw [settleOwed_finishBegun]

/-- A begun handling, finished or not, makes no difference behind a slot write or to what settling leaves. -/
theorem finishBegun_framesAlike : FramesAlike fun s t => t = s ∨ t = finishBegun s where
  intake h := by
    rcases h with rfl | rfl
    · rfl
    · exact (finishBegun_frame _).intake
  now h := by
    rcases h with rfl | rfl
    · rfl
    · rw [(finishBegun_frame _).clock]
  settings h := by
    rcases h with rfl | rfl
    · rfl
    · exact (finishBegun_frame _).settings
  setIntake f h := by
    rcases h with rfl | rfl
    · exact .inl rfl
    · exact .inr (finishBegun_setIntake f _).symm
  write k r h := by
    rcases h with rfl | rfl
    · exact .inl rfl
    · exact .inl (writeSlot_finishBegun k r _)
  record x k r h := by
    rcases h with rfl | rfl
    · exact .inl rfl
    · rw [writeSlot_finishBegun]
      exact .inl rfl
  settleOwed h := by
    rcases h with rfl | rfl
    · exact .inl rfl
    · exact .inl (settleOwed_finishBegun _)

theorem settle_finishBegun (s : State) : settle (finishBegun s) = settle s := by
  rcases finishBegun_framesAlike.settle (.inr rfl) with h | h
  · exact h
  · exact h.trans (finishBegun_of_nothingBegun (settle_settled s).nothingBegun)

/-! ### Settling within a transaction -/

/-- An operation that a transaction may settle with: made twice, or behind a begun handling finished, it comes to the
same, and the transaction's opening may come before or after it. -/
structure Settles (settler : State → State) : Prop where
  twice : ∀ s, settler (settler s) = settler s
  begun : ∀ s, settler (finishBegun s) = settler s
  nothingBegun : ∀ s, (settler s).NothingBegun
  opened : ∀ p clocks s, settler (openTransaction p clocks s) = openTransaction p clocks (settler s)
  resetHeld : ∀ s, (settler s).resetHeld = s.resetHeld
  settings : ∀ s, (settler s).settings = s.settings

theorem settleOwed_settles : Settles settleOwed where
  twice := settleOwed_settleOwed
  begun := settleOwed_finishBegun
  nothingBegun _ := ⟨.inr rfl, .inr rfl⟩
  opened p clocks _ := (openTransaction_alike p clocks).settleOwed rfl
  resetHeld s := (settleOwed_frame s).resetHeld
  settings s := (settleOwed_frame s).settings

theorem settle_settles : Settles settle where
  twice := settle_settle
  begun := settle_finishBegun
  nothingBegun s := (settle_settled s).nothingBegun
  opened p clocks _ := (openTransaction_alike p clocks).framesAlike.settle rfl
  resetHeld s := (settle_frame s).resetHeld
  settings s := (settle_frame s).settings

/-- A transaction whose body settles first, under the settings in force, does the same on the settled state. -/
theorem Settles.transact {settler : State → State} (h : Settles settler) (p : Port) (clocks : Nat)
    {body rest : State → State × Response} {s : State}
    (hbody : ∀ t, t.settings = s.settings → body t = rest (settler t))
    (hreset : s.resetHeld = false) : transact p clocks body (settler s) = transact p clocks body s := by
  have hsame : settler (openTransaction p clocks (finishBegun (settler s))) =
      settler (openTransaction p clocks (finishBegun s)) := by
    rw [finishBegun_of_nothingBegun (h.nothingBegun s), h.opened, h.opened, h.twice, h.begun]
  unfold Machine.transact
  rw [h.resetHeld, hreset, if_neg (by decide), if_neg (by decide)]
  dsimp only
  rw [hbody (openTransaction p clocks (finishBegun (settler s))) ((finishBegun_frame _).settings.trans (h.settings s)),
    hbody (openTransaction p clocks (finishBegun s)) (finishBegun_frame _).settings, hsame]

/-! ### The commands at the ports -/

section
variable {c : Instr} {p : Port} {bits rest : List Bool} {s : State}

/-- While RESET is asserted the select is disregarded (R188). -/
theorem exec_of_resetHeld (hwf : c.wellFormed = true) (hc : encodeTransaction c = some (p, bits))
    (hreset : s.resetHeld = true) : exec c s = .next (disregard p bits.length false s) := by
  rcases (transaction_of_encode hc).refused_or_next with ⟨_, hill, -⟩ | ⟨body, h⟩
  · exact absurd (hwf.symm.trans hill) (by decide)
  · rw [h, transact_of_resetHeld hreset]

/-- A port command finishes a begun handling first, so it does the same once that is finished. -/
theorem exec_finishBegun (hc : encodeTransaction c = some (p, bits)) (hreset : s.resetHeld = false) :
    exec c (finishBegun s) = exec c s := by
  rcases (transaction_of_encode hc).refused_or_next with ⟨_, -, h⟩ | ⟨body, h⟩
  · rw [h, h]
  · rw [h, h, transact_finishBegun _ _ _ hreset]

/-- With no handling begun, a request other than the four that settle leaves alone what the events rest on. -/
theorem exec_betweenEvents {t : State} (hc : encodeTransaction c = some (p, bits))
    (hother : ∀ rest,
      c ≠ .setProfile p rest ∧ c ≠ .setStation p rest ∧ c ≠ .start p rest ∧ c ≠ .stop p rest)
    (hbegun : s.NothingBegun) (ht : exec c s = .next t) : BetweenEvents s t := by
  rcases transaction_of_encode hc with ⟨_, -, h⟩ | ⟨body, hbody, h⟩ | ⟨body, rest, hsettling, -⟩
  · cases (h s).symm.trans ht
  · cases (h s).symm.trans ht
    refine transact_keeps BetweenEvents BetweenEvents.trans setPort_betweenEvents
      (requestBody_betweenEvents hbody) ?_ p _
    rw [finishBegun_of_nothingBegun hbegun]
    exact .refl s
  · obtain ⟨hprofile, hstation, hstart, hstop⟩ := hother rest
    rcases hsettling with h | h | h | h
    · exact absurd h hprofile
    · exact absurd h hstation
    · exact absurd h hstart
    · exact absurd h hstop

/-- SET PROFILE, START and STOP let no time pass and write no slot. -/
theorem exec_sameInstant {t : State} (hc : c = .setProfile p rest ∨ c = .start p rest ∨ c = .stop p rest)
    (ht : exec c s = .next t) : SameInstant s t := by
  rcases hc with rfl | rfl | rfl
  · rcases exec_setProfile_transact p rest with ⟨b, written, h⟩ | ⟨-, h⟩
    · cases (h s).symm.trans ht
      exact transact_settleOwed_sameInstant (setProfileBody_sameInstant p b written) p _ s
    · cases (h s).symm.trans ht
      exact transact_sameInstant (fun _ => ⟨rfl, rfl, rfl⟩) p _ s
  · cases ht
    exact transact_settleOwed_sameInstant startBody_sameInstant p _ s
  · cases ht
    exact transact_settleOwed_sameInstant stopBody_sameInstant p _ s

theorem exec_setProfile_settleOwed (hreset : s.resetHeld = false) (hlong : 312 ≤ rest.length) :
    exec (.setProfile p rest) (settleOwed s) = exec (.setProfile p rest) s := by
  rcases exec_setProfile_transact p rest with ⟨b, written, h⟩ | ⟨hshort, -⟩
  · rw [h, h, settleOwed_settles.transact p _ (rest := setProfileBody p b written) (fun _ _ => rfl) hreset]
  · exact absurd hlong (Nat.not_le.2 hshort)

theorem exec_start_settleOwed (hreset : s.resetHeld = false) :
    exec (.start p rest) (settleOwed s) = exec (.start p rest) s :=
  congrArg Host.Outcome.next (settleOwed_settles.transact p _ (rest := startBody) (fun _ _ => rfl) hreset)

theorem exec_stop_settleOwed (hreset : s.resetHeld = false) :
    exec (.stop p rest) (settleOwed s) = exec (.stop p rest) s :=
  congrArg Host.Outcome.next (settleOwed_settles.transact p _ (rest := stopBody) (fun _ _ => rfl) hreset)

section
variable {written : Station} {more : List Bool}

theorem clampStation_linkDivider (x : Station) : (clampStation x).linkDivider = min x.linkDivider 255 := by
  show clamp 0 255 x.linkDivider = _
  unfold clamp
  split_ifs <;> omega

/-- The request's fourteen bytes are the settings written, in any state. -/
theorem exec_setStation_transact (hwords : ∀ x ∈ stationWords written, x < 65536)
    (hrest : rest = bitsOfBytes ((stationWords written).flatMap
      fun x => [BitVec.ofNat 8 (x / 256), BitVec.ofNat 8 x]) ++ more) (s : State) :
    exec (.setStation p rest) s = .next (transact p (requestClocks rest)
      (fun t => setStationBody p written (settleForStation (clampStation written) t)) s) := by
  have hbytes : wholeBytes rest = (stationWords written).flatMap
      (fun x => [BitVec.ofNat 8 (x / 256), BitVec.ofNat 8 x]) ++ wholeBytes more := by
    rw [hrest, wholeBytes_bitsOfBytes]
  have hlong : ¬ (wholeBytes rest).length < 14 := by
    rw [hbytes, List.length_append]
    exact Nat.not_lt.2 (Nat.le_add_right 14 _)
  show execSetStation p rest s = _
  rw [execSetStation, if_neg hlong, hbytes, words16_flatMap hwords, stationOfWords_stationWords]

/-- SET STATION settles by the divider it names: it does the same behind what it settles with. -/
theorem exec_setStation_settled {settler : State → State} (hsettles : Settles settler)
    (hwords : ∀ x ∈ stationWords written, x < 65536)
    (hrest : rest = bitsOfBytes ((stationWords written).flatMap
      fun x => [BitVec.ofNat 8 (x / 256), BitVec.ofNat 8 x]) ++ more) (hreset : s.resetHeld = false)
    (hwith : ∀ t, t.settings = s.settings → settleForStation (clampStation written) t = settler t) :
    exec (.setStation p rest) (settler s) = exec (.setStation p rest) s := by
  rw [exec_setStation_transact hwords hrest, exec_setStation_transact hwords hrest,
    hsettles.transact p _ (rest := setStationBody p written) (fun t ht => by rw [hwith t ht]) hreset]

end

end

/-- Settles O4: each transaction as a request at its port, with the frame of its body; and settling, which finds
the same owed before a transaction as within it. -/
theorem portCommandsStandBetweenEvents : Obligations.PortCommandsStandBetweenEvents := by
  unfold Obligations.PortCommandsStandBetweenEvents
  refine ⟨fun c p bits s hwf hc hreset => exec_of_resetHeld hwf hc hreset,
    fun p clocks held s hreset => if_pos hreset,
    fun c p bits s hc hreset => exec_finishBegun hc hreset,
    fun s => ⟨finishBegun_nothingBegun s, finishBegun_of_nothingBegun⟩, fun c p bits s t hc hother hbegun ht => ?_,
    fun c p rest s t hc ht => exec_sameInstant hc ht,
    fun p rest s hreset => ⟨exec_start_settleOwed hreset, exec_stop_settleOwed hreset,
      exec_setProfile_settleOwed hreset, fun written more hwords hrest => ?_⟩,
    fun s => ⟨rfl, settle_settled s, settle_of_settled⟩⟩
  · obtain ⟨howed, hintake, hnow, hgrant, hring, htmu, hfilters, hunits, hrefiner, hsettings⟩ :=
      exec_betweenEvents hc hother hbegun ht
    exact ⟨howed, hintake, hnow, hgrant, hring, htmu, hfilters, hunits, hrefiner, hsettings⟩
  · rw [← clampStation_linkDivider]
    refine ⟨fun hsame => ?_, fun hchanged => ?_⟩
    · exact exec_setStation_settled settleOwed_settles hwords hrest hreset fun t ht => if_pos (by rw [ht, hsame])
    · exact exec_setStation_settled settle_settles hwords hrest hreset fun t ht => if_neg (by rwa [ht])

end Sys2Proof.Machine
end

section
/-! The list's and the readers' operations as equations (R120 to R135, R140 to R156): what an evaluation of the backlog,
a removal, an insertion, an eviction, a retirement and a release make of the state. -/

namespace Sys2Proof.Machine

/-! ### The evaluation of a backlog (R153, R154) -/

theorem Reader.evaluatedAt_of_agrees {rd : Reader} {b : Nat} (h : rd.armed = decide (b < rd.threshold)) :
    rd.evaluatedAt b = rd := by rw [Reader.evaluatedAt, ← h]

theorem Reader.noticesAt_of_quiet {rd : Reader} {b : Nat} (h : ¬ (rd.armed = true ∧ rd.threshold ≤ b))
    (set : BitVec 8) : rd.noticesAt b set = set := if_neg h

/-- The reader and the notices as R154 leaves them; nothing else differs. -/
theorem evaluateBacklog_eq (p : Port) (s : State) :
    evaluateBacklog p s = { s with
      readers := s.readers.set p ((s.readers.get p).evaluatedAt (s.backlog p))
      ports := s.ports.set p { s.ports.get p with
        notices := (s.readers.get p).noticesAt (s.backlog p) (s.ports.get p).notices } } := by
  unfold evaluateBacklog
  dsimp only
  by_cases hraise : (s.readers.get p).armed = true ∧ (s.readers.get p).threshold ≤ s.backlog p
  · rw [if_pos (by simpa using hraise), Reader.noticesAt, if_pos hraise, Reader.evaluatedAt,
      decide_eq_false (Nat.not_lt.2 hraise.2)]
    rfl
  · rw [if_neg (by simpa using hraise), Reader.noticesAt_of_quiet hraise, Ports.set_get]
    by_cases hset : (s.readers.get p).armed = false ∧ s.backlog p < (s.readers.get p).threshold
    · rw [if_pos (by simpa using hset), Reader.evaluatedAt, decide_eq_true hset.2]
      rfl
    · rw [if_neg (by simpa using hset), Reader.evaluatedAt_of_agrees, Ports.set_get]
      cases harmed : (s.readers.get p).armed with
      | false => exact (decide_eq_false fun hlt => hset ⟨harmed, hlt⟩).symm
      | true => exact (decide_eq_true (Nat.lt_of_not_le fun hle => hraise ⟨harmed, hle⟩)).symm

theorem evaluateBacklog_reader (p q : Port) (s : State) :
    (evaluateBacklog p s).readers.get q =
      if q = p then (s.readers.get p).evaluatedAt (s.backlog p) else s.readers.get q := by
  rw [evaluateBacklog_eq]
  exact Ports.get_set _ _ _ _

theorem evaluateBacklog_port (p q : Port) (s : State) :
    (evaluateBacklog p s).ports.get q =
      if q = p then { s.ports.get p with
        notices := (s.readers.get p).noticesAt (s.backlog p) (s.ports.get p).notices }
      else s.ports.get q := by
  rw [evaluateBacklog_eq]
  exact Ports.get_set _ _ _ _

/-- A backlog rests on the records and on whether its reader is attached and what it has been delivered. -/
theorem State.backlog_congr {s t : State} {p : Port} (hrecords : t.list.records = s.list.records)
    (hattached : (t.readers.get p).attached = (s.readers.get p).attached)
    (hdelivered : (t.readers.get p).delivered = (s.readers.get p).delivered) : t.backlog p = s.backlog p := by
  unfold State.backlog available
  rw [hrecords, hattached, hdelivered]

@[simp] theorem evaluateBacklog_backlog (p q : Port) (s : State) : (evaluateBacklog p s).backlog q = s.backlog q := by
  refine State.backlog_congr (by rw [evaluateBacklog_list]) ?_ ?_
  all_goals
    rw [evaluateBacklog_reader]
    split
    · rename_i h
      rw [h]
      rfl
    · rfl

@[simp] theorem evaluateBacklogs_backlog (p : Port) (s : State) : (evaluateBacklogs s).backlog p = s.backlog p := by
  simp [evaluateBacklogs]

/-- Both readers are evaluated at the backlogs they have. -/
theorem evaluateBacklogs_reader (p : Port) (s : State) :
    (evaluateBacklogs s).readers.get p = (s.readers.get p).evaluatedAt (s.backlog p) := by
  cases p <;> simp [evaluateBacklogs, evaluateBacklog_reader]

theorem evaluateBacklogs_port (p : Port) (s : State) :
    (evaluateBacklogs s).ports.get p = { s.ports.get p with
      notices := (s.readers.get p).noticesAt (s.backlog p) (s.ports.get p).notices } := by
  cases p <;> simp [evaluateBacklogs, evaluateBacklog_reader, evaluateBacklog_port]

/-! ### Removals (R127, R133) -/

/-- The list with the records that `keep` names, each as `g` leaves it, and the near-full flag set where fewer than 48
are left (R133). -/
def PickList.thin (l : PickList) (keep : Record → Bool) (g : Record → Record) : PickList :=
  { l with
    records := (l.records.filter keep).map g
    nearFullArmed := l.nearFullArmed || decide ((l.records.filter keep).length < 48) }

theorem nearFullFall_eq (s : State) :
    nearFullFall s = { s with list := { s.list with
      nearFullArmed := s.list.nearFullArmed || decide (s.list.records.length < 48) } } := by
  unfold nearFullFall
  rw [show Config.nearFullRearm = 48 from rfl]
  by_cases hset : s.list.nearFullArmed = false ∧ s.list.records.length < 48
  · rw [if_pos (by simpa using hset), decide_eq_true hset.2, Bool.or_true]
  · have hsame : (s.list.nearFullArmed || decide (s.list.records.length < 48)) = s.list.nearFullArmed := by
      cases harmed : s.list.nearFullArmed with
      | true => rfl
      | false => exact decide_eq_false fun hlt => hset ⟨harmed, hlt⟩
    rw [if_neg (by simpa using hset), hsame]

/-- A removal test on records that have just changed otherwise. -/
theorem removalTest_setRecords_map (tested : Record → Bool) (g : Record → Record) (s : State) :
    removalTest tested (s.setRecords (s.list.records.map g)) =
      { s with list := s.list.thin (fun r => !(tested (g r) && s.removable (g r))) g } := by
  have hfilter : (s.list.records.map g).filter (fun r => !(tested r && s.removable r)) =
      (s.list.records.filter fun r => !(tested (g r) && s.removable (g r))).map g := List.filter_map
  rw [removalTest, nearFullFall_eq]
  show ({ s with list := { s.list with
    records := (s.list.records.map g).filter (fun r => !(tested r && s.removable r))
    nearFullArmed := s.list.nearFullArmed
      || decide (((s.list.records.map g).filter (fun r => !(tested r && s.removable r))).length < 48) } } : State) = _
  rw [hfilter, List.length_map]
  rfl

/-- Whether a record is removable, seen from either port (R127). -/
theorem State.removable_eq (s : State) (p : Port) (r : Record) :
    s.removable r = (r.released && ((s.readers.get p).attached || (s.readers.get p.other).attached)
      && (!(s.readers.get p).attached || r.marks.get p)
      && (!(s.readers.get p.other).attached || r.marks.get p.other)) := by
  cases p
  · rfl
  · show (r.released && (s.readers.a.attached || s.readers.b.attached) && (!s.readers.a.attached || r.marks.a)
      && (!s.readers.b.attached || r.marks.b)) = (r.released && (s.readers.b.attached || s.readers.a.attached)
      && (!s.readers.b.attached || r.marks.b) && (!s.readers.a.attached || r.marks.a))
    rw [Bool.or_comm s.readers.a.attached, Bool.and_right_comm]

end Sys2Proof.Machine
end

section
/-! The readers' requests and the hand-over of a record as equations (R120 to R122, R127, R129, R133, R140 to R151). -/

namespace Sys2Proof.Machine

/-! ### Marks and sequences -/

/-- A record with a reader's mark set or cleared. -/
def Record.mark (r : Record) (p : Port) (m : Bool) : Record := { r with marks := r.marks.set p m }

@[simp] theorem Record.mark_serial (r : Record) (p : Port) (m : Bool) : (r.mark p m).serial = r.serial := rfl
@[simp] theorem Record.mark_released (r : Record) (p : Port) (m : Bool) : (r.mark p m).released = r.released := rfl
@[simp] theorem Record.mark_marks (r : Record) (p : Port) (m : Bool) : (r.mark p m).marks = r.marks.set p m := rfl

section
variable (s : State) (p : Port)

theorem State.removable_setReader (rd : Reader) (r : Record) :
    (s.setReader p rd).removable r = (r.released && (rd.attached || (s.readers.get p.other).attached)
      && (!rd.attached || r.marks.get p) && (!(s.readers.get p.other).attached || r.marks.get p.other)) := by
  rw [State.removable_eq _ p, State.setReader_readers, Ports.get_set_same,
    Ports.get_set_other _ _ (Port.other_ne p)]

/-- Which records a re-marked record's removal test keeps, when its reader is attached or is not. -/
theorem State.removable_setReader_mark (rd : Reader) (m : Bool) (r : Record) :
    (s.setReader p rd).removable (r.mark p m) =
      (r.released && (rd.attached || (s.readers.get p.other).attached) && (!rd.attached || m)
        && (!(s.readers.get p.other).attached || r.marks.get p.other)) := by
  rw [State.removable_setReader, Record.mark_marks, Ports.get_set_same, Ports.get_set_other _ _ (Port.other_ne p),
    Record.mark_released]

/-- ATTACH: the list thinned of what is then removable, and the evaluation (R140 to R142). -/
theorem attachReader_eq (m : Bool) :
    attachReader p m s = evaluateBacklog p
      { s.setReader p { s.readers.get p with attached := true, delivered := [] } with
        list := s.list.thin
          (fun r => !(r.released && m && (!(s.readers.get p.other).attached || r.marks.get p.other)))
          (Record.mark · p m) } := by
  rw [attachReader, markAll]
  dsimp only
  refine congrArg (evaluateBacklog p) ((removalTest_setRecords_map (fun _ => true) (Record.mark · p m) _).trans ?_)
  simp only [State.removable_setReader_mark, Bool.true_and, Bool.true_or, Bool.and_true, Bool.not_true,
    Bool.false_or, State.setReader_list]

/-- DETACH: the reader reset but for its threshold, and the list thinned of what is then removable (R143). -/
theorem detachReader_eq :
    detachReader p s =
      { s.setReader p { s.readers.get p with attached := false, delivered := [], armed := true } with
        list := s.list.thin
          (fun r => !(r.released && (s.readers.get p.other).attached && r.marks.get p.other))
          (Record.mark · p false) } := by
  rw [detachReader, markAll]
  dsimp only
  refine (removalTest_setRecords_map (fun _ => true) (Record.mark · p false) _).trans ?_
  have hkeep (r : Record) : (r.released && (s.readers.get p.other).attached
      && (!(s.readers.get p.other).attached || r.marks.get p.other)) =
      (r.released && (s.readers.get p.other).attached && r.marks.get p.other) := by
    cases (s.readers.get p.other).attached
    · rw [Bool.and_false, Bool.false_and, Bool.false_and]
    · rfl
  simp only [State.removable_setReader_mark, Bool.true_and, Bool.false_or, Bool.not_false, Bool.true_or, Bool.and_true,
    hkeep, State.setReader_list]

/-- CONFIRM by an attached reader: the records up to the serial marked, and thinned of those then removable (R148). -/
theorem confirmUpTo_eq (v : Serial) (hattached : (s.readers.get p).attached = true) :
    confirmUpTo p v s =
      { s.setReader p { s.readers.get p with delivered := deliveredAfter v (s.readers.get p).delivered } with
        list := s.list.thin
          (fun r => !((deliveredUpTo v (s.readers.get p).delivered).contains r.serial && r.released
            && (!(s.readers.get p.other).attached || r.marks.get p.other)))
          (fun r =>
            if (deliveredUpTo v (s.readers.get p).delivered).contains r.serial then r.mark p true else r) } := by
  rw [confirmUpTo, markSerials]
  generalize deliveredUpTo v (s.readers.get p).delivered = vs
  refine (removalTest_setRecords_map (fun r => vs.contains r.serial)
    (fun r => if vs.contains r.serial then r.mark p true else r) _).trans ?_
  rw [State.setReader_list]
  refine congrArg (fun keep => ({ s.setReader p _ with list := s.list.thin keep _ } : State)) (funext fun r => ?_)
  cases hv : vs.contains r.serial with
  | false =>
    rw [if_neg (by decide), hv]
    rfl
  | true =>
    rw [if_pos rfl, State.removable_setReader_mark, Record.mark_serial, hv]
    simp [hattached]

/-- PORT RESET: as DETACH, with the threshold and the interface reset (R187). -/
theorem portResetBody_eq :
    portResetBody p s =
      ({ s with
        list := s.list.thin
          (fun r => !(r.released && (s.readers.get p.other).attached && r.marks.get p.other))
          (Record.mark · p false)
        readers := s.readers.set p { attached := false, delivered := [], threshold := 8, armed := true }
        ports := s.ports.set p { s.ports.get p with notices := 0, mask := 255, engine := .idle }
        clock := { s.clock with fillOrder := s.clock.fillOrder.erase p } }, .nothing) := by
  rw [portResetBody, detachReader_eq]
  dsimp only [State.setReader, State.setPort]
  rw [Ports.get_set_same, Ports.set_set]

end

/-! ### Hand-overs (R120 to R122) -/

/-- The record that a key and a kind part make in a list (R120, R122). -/
def PickList.handed (l : PickList) (key : Index) (d : Detail) : Record where
  serial := freeSerial (l.records.map Record.serial) Config.listDepth l.nextSerial
  key := key
  detail := d
  released := false
  marks := Ports.all false

/-- The list with that record at its place. -/
def PickList.inserted (l : PickList) (key : Index) (d : Detail) : PickList :=
  { l with
    records := placeRecord (l.handed key d) l.records
    nextSerial := (l.handed key d).serial + 1 }

theorem evictIfFull_of_room {s : State} (h : s.list.records.length < 64) : evictIfFull s = s := by
  unfold evictIfFull
  split
  · exact if_neg (Nat.not_le.2 h)
  · rfl

theorem evictIfFull_of_full {s : State} {head : Record} {more : List Record} (h : s.list.records = head :: more)
    (hfull : 64 ≤ s.list.records.length) : evictIfFull s = loseRecordBoth head (s.setRecords more) := by
  unfold evictIfFull
  rw [h] at hfull ⊢
  exact if_pos hfull

theorem insertRecord_of_not_full {s : State} (h : s.list.records.length < 64) (key : Index) (d : Detail) :
    insertRecord key d s = nearFullRise { s with list := s.list.inserted key d } := by
  unfold insertRecord
  dsimp only
  rw [evictIfFull_of_room h]
  exact if_pos h

theorem insertRecord_of_full {s : State} {head : Record} {more : List Record} (h : s.list.records = head :: more)
    (hfull : 64 ≤ s.list.records.length) (key : Index) (d : Detail) :
    insertRecord key d s =
      { loseRecordBoth head (s.setRecords more) with list := (s.setRecords more).list.inserted key d } := by
  have hnot : ¬ s.list.records.length < Config.listDepth := Nat.not_lt.2 hfull
  unfold insertRecord
  dsimp only
  rw [if_neg hnot, evictIfFull_of_full h hfull, loseRecordBoth_list]
  rfl

/-- The near-full notice after an insertion comes with the 56th record only (R133). -/
theorem nearFullRise_of_quiet {s : State} (h : s.list.nearFullArmed = false ∨ s.list.records.length ≠ 56) :
    nearFullRise s = s := by
  refine if_neg fun hrise => ?_
  rw [Bool.and_eq_true, decide_eq_true_iff] at hrise
  rcases h with h | h
  · exact absurd hrise.1 (by rw [h]; decide)
  · exact h hrise.2

theorem nearFullRise_of_due {s : State} (h : s.list.nearFullArmed = true) (hcount : s.list.records.length = 56) :
    nearFullRise s = raiseBoth .nearFull { s with list := { s.list with nearFullArmed := false } } :=
  if_pos (by rw [h, hcount]; rfl)

theorem nearFullRise_list (s : State) :
    (nearFullRise s).list = { s.list with
      nearFullArmed := s.list.nearFullArmed && !decide (s.list.records.length = 56) } := by
  by_cases hdue : s.list.nearFullArmed = true ∧ s.list.records.length = 56
  · rw [nearFullRise_of_due hdue.1 hdue.2, decide_eq_true hdue.2, Bool.not_true, Bool.and_false]
    rfl
  · have hquiet : s.list.nearFullArmed = false ∨ s.list.records.length ≠ 56 := by
      rw [not_and_or] at hdue
      exact hdue.imp_left Bool.eq_false_iff.2
    rw [nearFullRise_of_quiet hquiet]
    rcases hquiet with h | h
    · rw [h, Bool.false_and, ← h]
    · rw [decide_eq_false h, Bool.not_false, Bool.and_true]

theorem placeRecord_perm (new : Record) (rs : List Record) : (placeRecord new rs).Perm (new :: rs) := by
  obtain ⟨before, after, rfl, hplaced, -, -⟩ := placeRecord_split new rs
  rw [hplaced]
  exact List.perm_middle

/-- The list after a hand-over: with the record at its place, and the flag clear where it makes 56 (R121, R133). -/
theorem insertRecord_list_of_not_full {s : State} (h : s.list.records.length < 64) (key : Index) (d : Detail) :
    (insertRecord key d s).list = { s.list.inserted key d with
      nearFullArmed := s.list.nearFullArmed && !decide (s.list.records.length + 1 = 56) } := by
  have hlength : (s.list.inserted key d).records.length = s.list.records.length + 1 := length_placeRecord _ _
  rw [insertRecord_of_not_full h, nearFullRise_list, hlength]
  rfl

/-- A full list takes the record in place of its head (R129). -/
theorem insertRecord_list_of_full {s : State} (h : 64 ≤ s.list.records.length) (key : Index) (d : Detail) :
    (insertRecord key d s).list = PickList.inserted { s.list with records := s.list.records.tail } key d := by
  cases hrecords : s.list.records with
  | nil =>
    rw [hrecords] at h
    cases h
  | cons head more =>
    rw [insertRecord_of_full hrecords h]
    rfl

end Sys2Proof.Machine
end

section
/-! What a step can do to the records and the readers: a condition on them that a hand-over, a retirement, a release and
the requests keep is kept by every step. -/

namespace Sys2Proof.Machine

/-- A condition on the records, the near-full flag and the readers that each of these operations keeps. -/
structure RecordsInvariant (P : State → Prop) : Prop where
  same : ∀ {s t : State}, t.list.records = s.list.records → t.list.nearFullArmed = s.list.nearFullArmed →
    t.readers = s.readers → P s → P t
  insert : ∀ (key : Index) (d : Detail) {s : State}, P s → P (insertRecord key d s)
  retire : ∀ (n : Index) {s : State}, P s → P (retireRecords n s)
  release : ∀ (n : Index) {s : State}, P s → P (releaseRecords n s)
  request : ∀ {body : State → State × Response} {s : State}, RequestBody body → P s → P (body s).1
  reset : P State.reset

section
variable {P : State → Prop} {s t : State}

theorem RecordsInvariant.beside (h : RecordsInvariant P) (hlist : t.list = s.list) (hreaders : t.readers = s.readers)
    (hs : P s) : P t := h.same (by rw [hlist]) (by rw [hlist]) hreaders hs

theorem RecordsInvariant.keeps_examination (h : RecordsInvariant P) (hs : P s) : P (launchExamination s) :=
  h.beside (launchExamination_list s).1 (launchExamination_list s).2 hs

theorem RecordsInvariant.keeps_offer (h : RecordsInvariant P) (r : Request) (hs : P s) : P (offerRequest r s) := by
  unfold offerRequest
  split
  · exact h.keeps_examination (h.beside (s := s) (t := s.setQueue _) rfl rfl hs)
  · exact h.insert _ _ hs

theorem RecordsInvariant.keeps_completion (h : RecordsInvariant P) (l : LaneId) (hs : P s) : P (completeLane l s) := by
  unfold completeLane
  split
  · exact h.keeps_examination (h.insert _ _ (h.beside (s := s) (t := s.setLane l .free) rfl rfl hs))
  all_goals exact hs

theorem RecordsInvariant.keeps_overdue (h : RecordsInvariant P) (hs : P s) : P (completeOverdue s) := by
  have hlane (l : LaneId) {s : State} (hs : P s) : P (completeOverdueLane l s) := by
    unfold completeOverdueLane
    split
    · split
      · exact h.keeps_completion l hs
      · exact hs
    all_goals exact hs
  exact hlane .l3 (hlane .l2 (hlane .l1 (hlane .l0 hs)))

theorem RecordsInvariant.keeps_handExpired (h : RecordsInvariant P) (rs : List Request) (hs : P s) :
    P (handExpired rs s) := by
  induction rs generalizing s with
  | nil => exact hs
  | cons r rs ih => exact ih (h.insert _ _ hs)

theorem RecordsInvariant.keeps_expiryStep (h : RecordsInvariant P) (n : Index) (hs : P s) : P (expiryStep n s) := by
  obtain ⟨rf, hexpired⟩ := expiryStep_expires n s
  rw [hexpired]
  exact h.beside (s := handExpired (s.refiner.expired n) s) rfl rfl (h.keeps_handExpired _ hs)

/-- A unit reaches the records by a CLOSE record and by a shed one, and by nothing else (R77, R90). -/
theorem RecordsInvariant.keeps_unitAct (h : RecordsInvariant P) (d : UnitDue) (b : Band) (hs : P s) :
    P (unitAct d b s) := by
  have hunit (u : TriggerUnit) : P (s.setUnit b u) := h.beside (s := s) rfl rfl hs
  have hclose (u : TriggerUnit) (c : CloseCause) (v : TriggerUnit) : P (handClose b u c (s.setUnit b v)) :=
    h.insert _ _ (hunit v)
  cases d with
  | nothing => exact hs
  | warm | calIdle | rewarm | trigger | calPending | stackBegin | dead => exact hunit _
  | calDeclared | fell | maxDur => exact hclose _ _ _
  | gapRun =>
    simp only [unitAct, unitGapRun]
    split
    · exact hs
    · exact hclose _ _ _
    all_goals exact hunit _
  | primary =>
    simp only [unitAct, unitPrimary]
    split
    · exact h.keeps_offer _ (hunit _)
    · exact hunit _
  | stacked =>
    simp only [unitAct, unitStacked]
    split
    · exact h.keeps_offer _ (h.beside (s := s) rfl rfl hs)
    · exact hunit _

theorem RecordsInvariant.keeps_unitFinish (h : RecordsInvariant P) (b : Band) (hs : P s) : P (unitFinish b s) := by
  unfold unitFinish
  split
  · exact h.beside (s := unitAct (s.unitDue b) b s) rfl rfl (h.keeps_unitAct _ b hs)
  · exact hs

theorem RecordsInvariant.keeps_changeTiming (h : RecordsInvariant P) (x : TimingState) (c : Nat) (hs : P s) :
    P (changeTiming x c s) :=
  h.beside (s := insertRecord _ _ _) rfl rfl (h.insert _ _ (h.beside (s := s) rfl rfl hs))

theorem RecordsInvariant.keeps_timingFinish (h : RecordsInvariant P) (hs : P s) : P (timingFinish s) := by
  have howed {t : State} (o : Owed) (ht : P t) : P (t.setOwed o) := h.beside (s := t) rfl rfl ht
  unfold timingFinish
  split
  · split
    · exact howed _ (h.keeps_changeTiming _ _ hs)
    · split
      · exact howed _ (h.keeps_changeTiming _ _ hs)
      · exact howed _ hs
  · exact hs

theorem RecordsInvariant.keeps_latchMark (h : RecordsInvariant P) (n : Newest) (hs : P s) : P (latchMark n s) := by
  unfold latchMark
  dsimp only
  split
  · exact h.beside (s := s) rfl rfl hs
  · exact h.keeps_changeTiming _ _ (h.beside (s := s) rfl rfl hs)

theorem grantRead_list (s : State) : (grantRead s).list = s.list ∧ (grantRead s).readers = s.readers := by
  unfold grantRead grantEngine
  dsimp only
  split
  · exact ⟨rfl, rfl⟩
  · exact ⟨rfl, rfl⟩
  · split
    · split <;> exact ⟨rfl, rfl⟩
    all_goals exact ⟨rfl, rfl⟩

/-- Effect by effect: the records and the readers are left alone, or undergo the operations. -/
theorem RecordsInvariant.keeps_effect (h : RecordsInvariant P) (hst : Effect s t) (hs : P s) : P t := by
  cases hst with
  | intake | time | settled | exchange | setStation | start | stop | dequeue => exact h.beside (s := s) rfl rfl hs
  | write k r =>
    exact h.beside (s := completeOverdue s) (t := writeCore k r (completeOverdue s)) rfl rfl (h.keeps_overdue hs)
  | unit b => exact h.keeps_unitFinish b hs
  | expiry => exact h.beside (s := expiryStep s.newestOr s) rfl rfl (h.keeps_expiryStep _ hs)
  | scanStart => exact h.beside (s := s) rfl rfl hs
  | launch => exact h.beside (s := launchExamination s) rfl rfl (h.keeps_examination hs)
  | examination => exact h.keeps_examination hs
  | completion l => exact h.keeps_completion l hs
  | retirement =>
    exact h.beside (s := retireRecords s.newestOr (takeUp s.newestOr s)) rfl rfl
      (h.retire _ (h.same (s := s) rfl rfl rfl hs))
  | release => exact h.beside (s := releaseRecords s.newestOr s) rfl rfl (h.release _ hs)
  | timing => exact h.keeps_timingFinish hs
  | mark n => exact h.keeps_latchMark n hs
  | intakeRecord x => exact h.beside (s := insertRecord _ _ _) rfl rfl (h.insert _ _ hs)
  | grant => exact h.beside (grantRead_list s).1 (grantRead_list s).2 hs
  | request body hbody => exact h.request hbody hs
  | setProfile p b written => cases b <;> exact h.beside (s := s) rfl rfl hs
  | power level held q => exact h.beside (s := State.reset) rfl rfl h.reset

theorem RecordsInvariant.keeps_step (h : RecordsInvariant P) (hs : P s) (ht : step s = .next t) : P t :=
  (step_effects ht).keeps h.keeps_effect hs

end

end Sys2Proof.Machine
end

section
/-! The list's counts, serials and flags, and the backlogs, through every step (R120, R129, R133, R153, R154). -/

namespace Sys2Proof.Machine

/-! ### Serials (R120) -/

/-- The serials looked at before the one chosen are all carried. -/
theorem freeSerial_spec (used : List Serial) (fuel : Nat) (v : Serial) :
    ∃ k ≤ fuel, freeSerial used fuel v = v + BitVec.ofNat 16 k
      ∧ (∀ j < k, v + BitVec.ofNat 16 j ∈ used) ∧ (k < fuel → freeSerial used fuel v ∉ used) := by
  induction fuel generalizing v with
  | zero => exact ⟨0, le_rfl, (BitVec.add_zero v).symm, nofun, nofun⟩
  | succ fuel ih =>
    unfold freeSerial
    split
    · rename_i hused
      obtain ⟨k, hk, hserial, hbelow, hfree⟩ := ih (v + 1)
      have hnext (j : Nat) : v + 1 + BitVec.ofNat 16 j = v + BitVec.ofNat 16 (j + 1) := by
        rw [BitVec.ofNat_add, BitVec.add_assoc, BitVec.add_comm 1]
        rfl
      refine ⟨k + 1, Nat.succ_le_succ hk, hserial.trans (hnext k), fun j hj => ?_,
        fun hlt => hfree (Nat.lt_of_succ_lt_succ hlt)⟩
      cases j with
      | zero => simpa using hused
      | succ j => exact hnext j ▸ hbelow j (Nat.lt_of_succ_lt_succ hj)
    · rename_i hused
      exact ⟨0, Nat.zero_le _, (BitVec.add_zero v).symm, nofun, fun _ => by simpa using hused⟩

/-- With fewer than 64 serials carried, one of the first 64 is free. -/
theorem freeSerial_of_short {used : List Serial} (h : used.length < 64) (v : Serial) :
    ∃ k < 64, freeSerial used 64 v = v + BitVec.ofNat 16 k
      ∧ (∀ j < k, v + BitVec.ofNat 16 j ∈ used) ∧ freeSerial used 64 v ∉ used := by
  obtain ⟨k, hk, hserial, hbelow, hfree⟩ := freeSerial_spec used 64 v
  have hlt : k < 64 := by
    refine Nat.lt_of_le_of_ne hk fun heq => ?_
    subst heq
    have hnodup : ((List.range 64).map fun j => v + BitVec.ofNat 16 j).Nodup := by
      refine List.nodup_range.map_on fun i hi j hj hij => ?_
      rw [List.mem_range] at hi hj
      bv_omega
    have hsubset : ((List.range 64).map fun j => v + BitVec.ofNat 16 j) ⊆ used := fun x hx => by
      obtain ⟨j, hj, rfl⟩ := List.mem_map.1 hx
      exact hbelow j (List.mem_range.1 hj)
    have hle := (List.subperm_of_subset hnodup hsubset).length_le
    rw [List.length_map, List.length_range] at hle
    omega
  exact ⟨k, hlt, hserial, hbelow, hfree hlt⟩

/-! ### The list (R120, R129, R133) -/

/-- At most 64 records of distinct serials, with the near-full flag agreeing with their count: `State.ListKept`, said of
the list. -/
def PickList.Kept (l : PickList) : Prop :=
  l.records.length ≤ 64 ∧ (l.records.map Record.serial).Nodup
    ∧ (l.nearFullArmed = true → l.records.length < 56) ∧ (l.nearFullArmed = false → 48 ≤ l.records.length)

theorem State.listKept_iff (s : State) : s.ListKept ↔ s.list.Kept := .rfl

section
variable {l : PickList}

theorem PickList.Kept.thin (h : l.Kept) (keep : Record → Bool) {g : Record → Record}
    (hg : ∀ r, (g r).serial = r.serial) : (l.thin keep g).Kept := by
  obtain ⟨hcount, hserials, harmed, -⟩ := h
  have hle := List.length_filter_le keep l.records
  have hlength : (l.thin keep g).records.length = (l.records.filter keep).length := List.length_map _
  unfold PickList.Kept
  rw [hlength]
  refine ⟨hle.trans hcount, ?_, fun hset => ?_, fun hclear => ?_⟩
  · show (((l.records.filter keep).map g).map Record.serial).Nodup
    rw [List.map_map, show Record.serial ∘ g = Record.serial from funext hg]
    exact hserials.sublist (List.filter_sublist.map _)
  · rcases Bool.or_eq_true_iff.1 hset with hset | hfew
    · exact hle.trans_lt (harmed hset)
    · exact (of_decide_eq_true hfew).trans (by decide)
  · exact Nat.le_of_not_lt (of_decide_eq_false (Bool.or_eq_false_iff.1 hclear).2)

theorem PickList.handed_serial_free (h : l.records.length < 64) (key : Index) (d : Detail) :
    (l.handed key d).serial ∉ l.records.map Record.serial := by
  obtain ⟨k, -, -, -, hfree⟩ := freeSerial_of_short (used := l.records.map Record.serial)
    (by rwa [List.length_map]) l.nextSerial
  exact hfree

theorem PickList.inserted_serials (h : l.records.length < 64) (hserials : (l.records.map Record.serial).Nodup)
    (key : Index) (d : Detail) : ((l.inserted key d).records.map Record.serial).Nodup := by
  have hperm := (placeRecord_perm (l.handed key d) l.records).map Record.serial
  exact hperm.nodup_iff.2 (List.nodup_cons.2 ⟨PickList.handed_serial_free h key d, hserials⟩)

theorem PickList.length_inserted (l : PickList) (key : Index) (d : Detail) :
    (l.inserted key d).records.length = l.records.length + 1 := length_placeRecord _ _

end

theorem insertRecord_listKept (key : Index) (d : Detail) {s : State} (h : s.list.Kept) :
    (insertRecord key d s).list.Kept := by
  obtain ⟨hcount, hserials, harmed, hclear⟩ := h
  rcases Nat.lt_or_eq_of_le hcount with hroom | hfull
  · rw [insertRecord_list_of_not_full hroom]
    refine ⟨?_, PickList.inserted_serials hroom hserials key d, fun hset => ?_, fun hunset => ?_⟩
    · exact (PickList.length_inserted ..).trans_le hroom
    · obtain ⟨hset, hcount⟩ := Bool.and_eq_true_iff.1 hset
      have hne : s.list.records.length + 1 ≠ 56 := by simpa using hcount
      have hlt := harmed hset
      exact (PickList.length_inserted ..).trans_lt (by omega)
    · have hle : 48 ≤ s.list.records.length + 1 := by
        rcases Bool.and_eq_false_iff.1 hunset with hunset | hcount
        · exact Nat.le_succ_of_le (hclear hunset)
        · have heq : s.list.records.length + 1 = 56 := by simpa using hcount
          omega
      exact hle.trans_eq (PickList.length_inserted ..).symm
  · have htail : s.list.records.tail.length = 63 := by rw [List.length_tail, hfull]
    have hlength : (PickList.inserted { s.list with records := s.list.records.tail } key d).records.length = 64 :=
      (PickList.length_inserted ..).trans (congrArg (· + 1) htail)
    rw [insertRecord_list_of_full hfull.ge]
    refine ⟨hlength.le, PickList.inserted_serials (htail.trans_lt (by decide)) ?_ key d, fun hset => ?_,
      fun _ => by rw [hlength]; decide⟩
    · exact hserials.sublist ((List.tail_sublist _).map _)
    · have hlt := harmed hset
      omega

/-! ### Retirement and release as the list undergoes them (R125, R132, R133) -/

@[simp] theorem foldl_loseRecordBoth_list (rs : List Record) (s : State) :
    (rs.foldl (fun t r => loseRecordBoth r t) s).list = s.list := by
  induction rs generalizing s with
  | nil => rfl
  | cons r rs ih => rw [List.foldl_cons, ih, loseRecordBoth_list]

theorem filter_eq_cons_of_any {rs : List Record} {f : Record → Bool} (h : rs.any f = true) :
    ∃ r more, rs.filter f = r :: more := by
  refine List.exists_cons_of_ne_nil fun hnil => ?_
  obtain ⟨r, hr, hf⟩ := List.any_eq_true.1 h
  exact List.not_mem_nil (hnil ▸ List.mem_filter.2 ⟨hr, hf⟩)

/-- With a record at the age limit, those there are lost one after another and the rest are kept (R132). -/
theorem retireRecords_of_due {n : Index} {s : State} (h : s.list.records.any (ageLimit n) = true) :
    retireRecords n s =
      { (s.list.records.filter (ageLimit n)).foldl (fun t r => loseRecordBoth r t)
          (s.setRecords (s.list.records.filter fun r => !ageLimit n r)) with
        list := s.list.thin (fun r => !ageLimit n r) id } := by
  obtain ⟨r, more, hlost⟩ := filter_eq_cons_of_any h
  have hold : (s.list.records.filter (ageLimit n)).isEmpty = false := by
    rw [hlost]
    rfl
  unfold retireRecords
  dsimp only
  rw [hold, if_neg (by decide), nearFullFall_eq, foldl_loseRecordBoth_list]
  unfold PickList.thin
  rw [List.map_id]
  rfl

/-- A record as the release step leaves it (R125). -/
def Record.releaseAt (h : Nat) (n : Index) (r : Record) : Record :=
  if releaseDue h n r then { r with released := true } else r

theorem Record.releaseAt_serial (h : Nat) (n : Index) (r : Record) : (r.releaseAt h n).serial = r.serial := by
  unfold Record.releaseAt
  split <;> rfl

theorem Record.releaseAt_key (h : Nat) (n : Index) (r : Record) : (r.releaseAt h n).key = r.key := by
  unfold Record.releaseAt
  split <;> rfl

/-- With a record due, those due are released, and those just released and removable are removed (R125, R127). -/
theorem releaseRecords_of_due {n : Index} {s : State}
    (h : s.list.records.any (releaseDue s.list.holdback n) = true) :
    releaseRecords n s = evaluateBacklogs { s with
      list := s.list.thin
        (fun r => !(((s.list.records.filter (releaseDue s.list.holdback n)).map Record.serial).contains r.serial
          && s.removable (r.releaseAt s.list.holdback n)))
        (Record.releaseAt s.list.holdback n) } := by
  obtain ⟨r, more, hreleased⟩ := filter_eq_cons_of_any h
  have hdue : ((s.list.records.filter (releaseDue s.list.holdback n)).map Record.serial).isEmpty = false := by
    rw [hreleased]
    rfl
  unfold releaseRecords
  dsimp only
  rw [hdue, if_neg (by decide)]
  refine congrArg evaluateBacklogs ((removalTest_setRecords_map _ _ s).trans ?_)
  have hserial (r : Record) : (if releaseDue s.list.holdback n r then { r with released := true } else r).serial =
      r.serial := Record.releaseAt_serial _ n r
  simp only [hserial]
  rfl

theorem retireRecords_list (n : Index) (s : State) :
    (retireRecords n s).list = s.list ∨ (retireRecords n s).list = s.list.thin (fun r => !ageLimit n r) id := by
  cases h : s.list.records.any (ageLimit n) with
  | false => exact .inl (by rw [retireRecords_of_not_due h])
  | true => exact .inr (by rw [retireRecords_of_due h])

theorem releaseRecords_list (n : Index) (s : State) : (releaseRecords n s).list = s.list
    ∨ ∃ keep, (releaseRecords n s).list = s.list.thin keep (Record.releaseAt s.list.holdback n) := by
  cases h : s.list.records.any (releaseDue s.list.holdback n) with
  | false => exact .inl (by rw [releaseRecords_of_not_due h])
  | true => exact .inr ⟨_, by rw [releaseRecords_of_due h, evaluateBacklogs_list]⟩

/-! ### The requests as the list undergoes them -/

/-- A request leaves the list alone, or thins it and changes marks. -/
theorem requestBody_list {body : State → State × Response} (h : RequestBody body) (s : State) :
    (body s).1.list = s.list
      ∨ ∃ keep g, (body s).1.list = s.list.thin keep g ∧ ∀ r : Record, g r = { r with marks := (g r).marks } := by
  cases h with
  | answer => exact .inl rfl
  | identify p =>
    left
    unfold identifyBody
    dsimp only
    split <;> rfl
  | attach p fromNow =>
    right
    rw [attachBody, attachReader_eq]
    exact ⟨_, _, evaluateBacklog_list _ _, fun r => rfl⟩
  | detach p =>
    unfold detachBody
    split
    · rw [detachReader_eq]
      exact .inr ⟨_, _, rfl, fun r => rfl⟩
    · exact .inl rfl
  | take p =>
    left
    unfold takeBody
    dsimp only
    split
    · rfl
    · split
      · rfl
      · split
        · rfl
        · exact evaluateBacklog_list _ _
  | confirm p v =>
    unfold confirmBody
    dsimp only
    split
    · exact .inl rfl
    · rename_i hattached
      split
      · exact .inl rfl
      · rw [confirmUpTo_eq s p v (by simpa using hattached)]
        exact .inr ⟨_, _, rfl, fun r => by split <;> rfl⟩
  | rewind p =>
    left
    unfold rewindBody
    dsimp only
    split
    · rfl
    · split
      · rfl
      · exact evaluateBacklog_list _ _
  | fetch p start count mask =>
    left
    unfold fetchBody
    split
    · rfl
    · split
      · rfl
      · split
        · split <;> rfl
        · split <;> rfl
  | readFetch p =>
    left
    unfold readFetchBody
    dsimp only
    split
    · rfl
    · split <;> rfl
    · split <;> rfl
  | getProfile b => cases b <;> exact .inl rfl
  | setPort p threshold mask => exact .inl (evaluateBacklog_list _ _)
  | portReset p =>
    rw [portResetBody_eq]
    exact .inr ⟨_, _, rfl, fun r => rfl⟩

/-- R120, R129, R133 hold of the list after every operation on the records. -/
theorem listKept_invariant : RecordsInvariant State.ListKept where
  same hrecords harmed _ hs := by
    unfold State.ListKept
    rw [hrecords, harmed]
    exact hs
  insert key d _ hs := insertRecord_listKept key d hs
  retire n s hs := by
    rcases retireRecords_list n s with hsame | hthin
    · rw [State.listKept_iff, hsame]
      exact hs
    · rw [State.listKept_iff, hthin]
      exact PickList.Kept.thin hs _ fun _ => rfl
  release n s hs := by
    rcases releaseRecords_list n s with hsame | ⟨keep, hthin⟩
    · rw [State.listKept_iff, hsame]
      exact hs
    · rw [State.listKept_iff, hthin]
      exact PickList.Kept.thin hs _ (Record.releaseAt_serial _ n)
  request hbody hs := by
    rcases requestBody_list hbody _ with hsame | ⟨keep, g, hthin, hg⟩
    · rw [State.listKept_iff, hsame]
      exact hs
    · rw [State.listKept_iff, hthin]
      exact PickList.Kept.thin hs _ fun r => by rw [hg]
  reset := reset_listKept

end Sys2Proof.Machine
end

section
/-! The backlogs and their armed flags through every step (R153, R154), and what the loss of a record makes of a reader
(R130). -/

namespace Sys2Proof.Machine

/-! ### The loss of a record (R130) -/

/-- A reader is told of the loss of the records it has not confirmed. -/
def Reader.loses (rd : Reader) (p : Port) (r : Record) : Bool := rd.attached && !r.marks.get p

/-- A reader after the loss of a record. -/
def Reader.losing (rd : Reader) (p : Port) (r : Record) : Reader :=
  { rd with delivered := if rd.loses p r then rd.delivered.erase r.serial else rd.delivered }

/-- The notices of its port then. -/
def Reader.lossNotices (rd : Reader) (p : Port) (r : Record) (set : BitVec 8) : BitVec 8 :=
  if rd.loses p r then noticeAdd .lost set else set

theorem loseRecord_eq (r : Record) (p : Port) (s : State) :
    loseRecord r p s = { s with
      readers := s.readers.set p ((s.readers.get p).losing p r)
      ports := s.ports.set p { s.ports.get p with
        notices := (s.readers.get p).lossNotices p r (s.ports.get p).notices } } := by
  unfold loseRecord Reader.losing Reader.lossNotices Reader.loses
  dsimp only
  split
  · rfl
  · rw [Ports.set_get, Ports.set_get]

theorem loseRecords_reader (r : Record) (s : State) (p : Port) :
    (loseRecord r .b (loseRecord r .a s)).readers.get p = (s.readers.get p).losing p r := by
  rw [loseRecord_eq, loseRecord_eq]
  cases p <;> rfl

theorem loseRecords_port (r : Record) (s : State) (p : Port) :
    (loseRecord r .b (loseRecord r .a s)).ports.get p = { s.ports.get p with
      notices := (s.readers.get p).lossNotices p r (s.ports.get p).notices } := by
  rw [loseRecord_eq, loseRecord_eq]
  cases p <;> rfl

/-- A reader after a loss and the evaluation that follows it (R130, R154). -/
theorem loseRecordBoth_reader (r : Record) (s : State) (p : Port) :
    (loseRecordBoth r s).readers.get p =
      ((s.readers.get p).losing p r).evaluatedAt ((loseRecordBoth r s).backlog p) := by
  rw [loseRecordBoth, evaluateBacklogs_reader, loseRecords_reader, evaluateBacklogs_backlog]

theorem loseRecordBoth_port (r : Record) (s : State) (p : Port) :
    (loseRecordBoth r s).ports.get p = { s.ports.get p with
      notices := ((s.readers.get p).losing p r).noticesAt ((loseRecordBoth r s).backlog p)
        ((s.readers.get p).lossNotices p r (s.ports.get p).notices) } := by
  rw [loseRecordBoth, evaluateBacklogs_port, loseRecords_reader, loseRecords_port, evaluateBacklogs_backlog]

/-! ### What leaves a backlog as it is (R153) -/

theorem State.backlog_eq_countP (s : State) (p : Port) :
    s.backlog p =
      if (s.readers.get p).attached then s.list.records.countP (available p (s.readers.get p)) else 0 := by
  rw [State.backlog, List.countP_eq_length_filter]

theorem State.backlog_of_detached {s : State} {p : Port} (h : (s.readers.get p).attached = false) :
    s.backlog p = 0 := by
  rw [State.backlog, h]
  rfl

/-- Records that go were not available, and records that stay are available as they were. -/
theorem countP_thin {q q' keep : Record → Bool} {g : Record → Record} {rs : List Record}
    (hkept : ∀ r ∈ rs, keep r = true → q' (g r) = q r) (hgone : ∀ r ∈ rs, keep r = false → q r = false) :
    ((rs.filter keep).map g).countP q' = rs.countP q := by
  rw [List.countP_map, List.countP_filter]
  refine List.countP_congr fun r hr => ?_
  show (q' (g r) && keep r) = true ↔ q r = true
  cases hk : keep r with
  | true => rw [hkept r hr hk, Bool.and_true]
  | false => rw [hgone r hr hk, Bool.and_false]

section
variable {s t : State} {p : Port}

theorem State.backlog_thin {keep : Record → Bool} {g : Record → Record}
    (hlist : t.list.records = (s.list.thin keep g).records)
    (hattached : (t.readers.get p).attached = (s.readers.get p).attached)
    (hkept : (s.readers.get p).attached = true → ∀ r ∈ s.list.records, keep r = true →
      available p (t.readers.get p) (g r) = available p (s.readers.get p) r)
    (hgone : (s.readers.get p).attached = true → ∀ r ∈ s.list.records, keep r = false →
      available p (s.readers.get p) r = false) : t.backlog p = s.backlog p := by
  rw [State.backlog_eq_countP, State.backlog_eq_countP, hattached, hlist]
  split
  · rename_i h
    exact countP_thin (hkept h) (hgone h)
  · rfl

/-- A record handed over is held, so it is available to nobody (R122, R134). -/
theorem State.backlog_inserted {l : PickList} {key : Index} {d : Detail} (hl : l.records = s.list.records)
    (hlist : t.list.records = (l.inserted key d).records) (hreader : t.readers.get p = s.readers.get p) :
    t.backlog p = s.backlog p := by
  have hperm : t.list.records.Perm (l.handed key d :: s.list.records) := by
    rw [hlist, ← hl]
    exact placeRecord_perm _ _
  have hheld : ¬ available p (s.readers.get p) (l.handed key d) = true := by simp [available, PickList.handed]
  rw [State.backlog_eq_countP, State.backlog_eq_countP, hreader, hperm.countP_eq, List.countP_cons_of_neg hheld]

/-! ### The condition on one reader -/

/-- A threshold is positive, and the armed flag is set exactly while the backlog is below it (R154, R167). -/
def State.Evaluated (s : State) (p : Port) : Prop :=
  1 ≤ (s.readers.get p).threshold ∧ (s.readers.get p).armed = decide (s.backlog p < (s.readers.get p).threshold)

theorem State.Evaluated.of_flag (hs : s.Evaluated p)
    (hthreshold : (t.readers.get p).threshold = (s.readers.get p).threshold)
    (harmed : (t.readers.get p).armed = (s.readers.get p).armed) (hbacklog : t.backlog p = s.backlog p) :
    t.Evaluated p := by
  unfold State.Evaluated
  rw [hthreshold, harmed, hbacklog]
  exact hs

theorem State.Evaluated.congr (hs : s.Evaluated p) (hreader : t.readers.get p = s.readers.get p)
    (hbacklog : t.backlog p = s.backlog p) : t.Evaluated p :=
  hs.of_flag (by rw [hreader]) (by rw [hreader]) hbacklog

theorem State.Evaluated.of_evaluatedAt {rd : Reader} (hrd : 1 ≤ rd.threshold)
    (h : t.readers.get p = rd.evaluatedAt (t.backlog p)) : t.Evaluated p := by
  unfold State.Evaluated
  rw [h]
  exact ⟨hrd, rfl⟩

/-- A detached reader's flag is set, as its backlog is 0 (R143, R153). -/
theorem State.Evaluated.of_detached {rd : Reader} (hreader : t.readers.get p = rd) (hdetached : rd.attached = false)
    (harmed : rd.armed = true) (h : 1 ≤ rd.threshold) : t.Evaluated p := by
  subst hreader
  refine ⟨h, ?_⟩
  rw [harmed, State.backlog_of_detached hdetached]
  exact (decide_eq_true h).symm

theorem evaluateBacklog_evaluated (h : 1 ≤ (s.readers.get p).threshold) : (evaluateBacklog p s).Evaluated p := by
  refine .of_evaluatedAt h ?_
  rw [evaluateBacklog_reader, if_pos rfl, evaluateBacklog_backlog]

theorem evaluateBacklog_evaluated_other {q : Port} (hq : q ≠ p) (h : s.Evaluated q) :
    (evaluateBacklog p s).Evaluated q :=
  h.congr (by rw [evaluateBacklog_reader, if_neg hq]) (evaluateBacklog_backlog p q s)

theorem evaluateBacklogs_evaluated (h : 1 ≤ (s.readers.get p).threshold) : (evaluateBacklogs s).Evaluated p := by
  refine .of_evaluatedAt h ?_
  rw [evaluateBacklogs_reader, evaluateBacklogs_backlog]

theorem loseRecordBoth_evaluated (r : Record) (h : 1 ≤ (s.readers.get p).threshold) :
    (loseRecordBoth r s).Evaluated p :=
  .of_evaluatedAt (rd := (s.readers.get p).losing p r) h (loseRecordBoth_reader r s p)

theorem foldl_loseRecordBoth_evaluated (r : Record) (rs : List Record) (h : 1 ≤ (s.readers.get p).threshold) :
    ((r :: rs).foldl (fun t r => loseRecordBoth r t) s).Evaluated p := by
  induction rs generalizing r s with
  | nil => exact loseRecordBoth_evaluated r h
  | cons r' rs ih => exact ih (s := loseRecordBoth r s) r' (loseRecordBoth_evaluated r h).1

/-! ### The operations on the records -/

theorem nearFullRise_evaluated (h : s.Evaluated p) : (nearFullRise s).Evaluated p := by
  have hreaders : (nearFullRise s).readers = s.readers := by
    unfold nearFullRise
    split <;> rfl
  exact h.congr (by rw [hreaders]) (State.backlog_congr (nearFullRise_records s) (by rw [hreaders]) (by rw [hreaders]))

theorem insertRecord_evaluated (key : Index) (d : Detail) (h : s.Evaluated p) : (insertRecord key d s).Evaluated p := by
  by_cases hroom : s.list.records.length < 64
  · rw [insertRecord_of_not_full hroom]
    exact nearFullRise_evaluated (h.congr rfl (State.backlog_inserted rfl rfl rfl))
  · have hfull := Nat.le_of_not_lt hroom
    cases hrecords : s.list.records with
    | nil =>
      rw [hrecords] at hfull
      cases hfull
    | cons head more =>
      rw [insertRecord_of_full hrecords hfull]
      refine (loseRecordBoth_evaluated (s := s.setRecords more) head h.1).congr rfl
        (State.backlog_inserted (l := (s.setRecords more).list) ?_ rfl rfl)
      rw [loseRecordBoth_list]

theorem retireRecords_evaluated (n : Index) (h : s.Evaluated p) : (retireRecords n s).Evaluated p := by
  cases hold : s.list.records.any (ageLimit n) with
  | false => rwa [retireRecords_of_not_due hold]
  | true =>
    rw [retireRecords_of_due hold]
    obtain ⟨r, rs, hlost⟩ := filter_eq_cons_of_any hold
    rw [hlost]
    refine (foldl_loseRecordBoth_evaluated r rs
      (s := s.setRecords (s.list.records.filter fun r => !ageLimit n r)) h.1).congr rfl
      (State.backlog_congr ?_ rfl rfl)
    rw [foldl_loseRecordBoth_list]
    exact List.map_id _

theorem releaseRecords_evaluated (n : Index) (h : s.Evaluated p) : (releaseRecords n s).Evaluated p := by
  cases hdue : s.list.records.any (releaseDue s.list.holdback n) with
  | false => rwa [releaseRecords_of_not_due hdue]
  | true =>
    rw [releaseRecords_of_due hdue]
    exact evaluateBacklogs_evaluated h.1

/-! ### The requests of a reader -/

theorem Port.eq_or_eq_other (p q : Port) : q = p ∨ q = p.other := by cases p <;> cases q <;> decide

/-- To the other reader a mark of this one says nothing. -/
theorem available_mark_other {p q : Port} (hq : q ≠ p) (rd : Reader) (r : Record) (m : Bool) :
    available q rd (r.mark p m) = available q rd r := by
  unfold available
  rw [Record.mark_marks, Ports.get_set_other _ _ hq, Record.mark_released, Record.mark_serial]

/-- A removal and marks of another reader leave a reader's backlog as it is: what goes, an attached reader has
confirmed. -/
theorem State.backlog_thin_other {q : Port} {keep : Record → Bool} {g : Record → Record}
    (hlist : t.list.records = (s.list.thin keep g).records) (hreader : t.readers.get q = s.readers.get q)
    (hg : ∀ r, available q (s.readers.get q) (g r) = available q (s.readers.get q) r)
    (hgone : (s.readers.get q).attached = true → ∀ r, keep r = false → r.marks.get q = true) :
    t.backlog q = s.backlog q := by
  refine State.backlog_thin hlist (by rw [hreader]) (fun _ r _ _ => ?_) fun hattached r _ hkeep => ?_
  · rw [hreader]
    exact hg r
  · rw [available, hgone hattached r hkeep, Bool.not_true, Bool.and_false, Bool.false_and]

theorem attachReader_evaluated (m : Bool) {q : Port} (h : ∀ p, s.Evaluated p) :
    (attachReader p m s).Evaluated q := by
  rw [attachReader_eq]
  rcases Port.eq_or_eq_other p q with rfl | rfl
  · refine evaluateBacklog_evaluated ?_
    rw [State.setReader_readers, Ports.get_set_same]
    exact (h q).1
  · refine evaluateBacklog_evaluated_other (Port.other_ne p) ((h p.other).congr ?_ ?_)
    · exact Ports.get_set_other _ _ (Port.other_ne p)
    · refine State.backlog_thin_other rfl (Ports.get_set_other _ _ (Port.other_ne p))
        (fun r => available_mark_other (Port.other_ne p) _ r m) fun hattached r hgone => ?_
      simp only [hattached, Bool.not_true, Bool.false_or, Bool.not_eq_false', Bool.and_eq_true] at hgone
      exact hgone.2

/-- Both readers through a DETACH or a PORT RESET of one. -/
theorem detaching_evaluated {rd : Reader} (hlist : t.list.records = (s.list.thin
      (fun r => !(r.released && (s.readers.get p.other).attached && r.marks.get p.other))
      (Record.mark · p false)).records)
    (hreaders : t.readers = s.readers.set p rd) (hdetached : rd.attached = false) (harmed : rd.armed = true)
    (hrd : 1 ≤ rd.threshold) (h : ∀ p, s.Evaluated p) (q : Port) : t.Evaluated q := by
  rcases Port.eq_or_eq_other p q with rfl | rfl
  · exact .of_detached (by rw [hreaders, Ports.get_set_same]) hdetached harmed hrd
  · have hreader : t.readers.get p.other = s.readers.get p.other := by
      rw [hreaders, Ports.get_set_other _ _ (Port.other_ne p)]
    refine (h p.other).congr hreader (State.backlog_thin_other hlist hreader
      (fun r => available_mark_other (Port.other_ne p) _ r false) fun hattached r hgone => ?_)
    simp only [hattached, Bool.not_eq_false', Bool.and_eq_true] at hgone
    exact hgone.2

/-- What is confirmed was delivered before and is marked after; the rest of the sequence stays (R148). -/
theorem available_confirmed {rd : Reader} {vs left : List Serial} (h : rd.delivered = vs ++ left) (q : Port)
    (r : Record) :
    available q { rd with delivered := left } (if vs.contains r.serial then r.mark q true else r) =
      available q rd r := by
  have hcontains : rd.delivered.contains r.serial = (vs.contains r.serial || left.contains r.serial) := by
    rw [h, List.contains_append]
  cases hv : vs.contains r.serial with
  | true =>
    rw [if_pos rfl, available, available, hcontains, hv, Record.mark_marks, Ports.get_set_same]
    simp
  | false => rw [if_neg (by decide), available, available, hcontains, hv, Bool.false_or]

theorem confirmUpTo_backlog (v : Serial) (hattached : (s.readers.get p).attached = true) (q : Port) :
    (confirmUpTo p v s).backlog q = s.backlog q := by
  rw [confirmUpTo_eq s p v hattached]
  have hsplit : (s.readers.get p).delivered =
      deliveredUpTo v (s.readers.get p).delivered ++ deliveredAfter v (s.readers.get p).delivered :=
    (List.take_append_drop _ _).symm
  rcases Port.eq_or_eq_other p q with rfl | rfl
  · refine State.backlog_thin rfl ?_ (fun _ r _ _ => ?_) fun _ r _ hgone => ?_
    · show (Reader.attached ((s.readers.set q _).get q)) = _
      rw [Ports.get_set_same]
    · show available q ((s.readers.set q _).get q) _ = _
      rw [Ports.get_set_same]
      exact available_confirmed hsplit q r
    · simp only [Bool.not_eq_false', Bool.and_eq_true] at hgone
      have hdelivered : (s.readers.get q).delivered.contains r.serial = true := by
        rw [hsplit, List.contains_append, hgone.1.1, Bool.true_or]
      rw [available, hdelivered, Bool.not_true, Bool.and_false]
  · refine State.backlog_thin_other rfl (Ports.get_set_other _ _ (Port.other_ne p)) (fun r => ?_)
      fun hattached r hgone => ?_
    · split
      · exact available_mark_other (Port.other_ne p) _ r true
      · rfl
    · simp only [hattached, Bool.not_true, Bool.false_or, Bool.not_eq_false', Bool.and_eq_true] at hgone
      exact hgone.2

theorem confirmUpTo_evaluated (v : Serial) (hattached : (s.readers.get p).attached = true)
    {q : Port} (h : s.Evaluated q) : (confirmUpTo p v s).Evaluated q := by
  have hreaders : (confirmUpTo p v s).readers = s.readers.set p
      { s.readers.get p with delivered := deliveredAfter v (s.readers.get p).delivered } := by
    rw [confirmUpTo_eq s p v hattached]
    rfl
  refine h.of_flag ?_ ?_ (confirmUpTo_backlog v hattached q)
  all_goals
    rw [hreaders, Ports.get_set]
    split
    · rename_i heq
      rw [heq]
    · rfl

/-- An evaluation after a change of one reader that leaves its threshold positive. -/
theorem evaluateBacklog_setReader_evaluated {rd : Reader} (hrd : 1 ≤ rd.threshold) (h : ∀ p, s.Evaluated p)
    (q : Port) : (evaluateBacklog p (s.setReader p rd)).Evaluated q := by
  by_cases hq : q = p
  · subst hq
    refine evaluateBacklog_evaluated ?_
    rwa [State.setReader_readers, Ports.get_set_same]
  · have hreader : (s.setReader p rd).readers.get q = s.readers.get q := Ports.get_set_other _ _ hq
    exact evaluateBacklog_evaluated_other hq ((h q).congr hreader
      (State.backlog_congr rfl (by rw [hreader]) (by rw [hreader])))

theorem requestBody_evaluated {body : State → State × Response} (hbody : RequestBody body) (h : ∀ p, s.Evaluated p)
    (q : Port) : (body s).1.Evaluated q := by
  have hsame {t : State} (hlist : t.list = s.list) (hreaders : t.readers = s.readers) : t.Evaluated q :=
    (h q).congr (by rw [hreaders]) (State.backlog_congr (by rw [hlist]) (by rw [hreaders]) (by rw [hreaders]))
  cases hbody with
  | answer => exact h q
  | identify p =>
    unfold identifyBody
    dsimp only
    split
    · exact h q
    · exact hsame rfl rfl
  | attach p fromNow => exact attachReader_evaluated fromNow h
  | detach p =>
    unfold detachBody
    split
    · rw [detachReader_eq]
      exact detaching_evaluated (rd := { s.readers.get p with attached := false, delivered := [], armed := true })
        rfl rfl rfl rfl (h p).1 h q
    · exact h q
  | take p =>
    unfold takeBody
    dsimp only
    split
    · exact h q
    · split
      · exact h q
      · split
        · exact h q
        · rename_i r _
          exact evaluateBacklog_setReader_evaluated
            (rd := { s.readers.get p with delivered := (s.readers.get p).delivered ++ [r.serial] }) (h p).1 h q
  | confirm p v =>
    unfold confirmBody
    dsimp only
    split
    · exact h q
    · rename_i hattached
      split
      · exact h q
      · exact confirmUpTo_evaluated v (by simpa using hattached) (h q)
  | rewind p =>
    unfold rewindBody
    dsimp only
    split
    · exact h q
    · split
      · exact h q
      · exact evaluateBacklog_setReader_evaluated (rd := { s.readers.get p with delivered := [] }) (h p).1 h q
  | fetch p start count mask =>
    unfold fetchBody
    split
    · exact h q
    · split
      · exact h q
      · split
        · split <;> exact h q
        · split
          · exact h q
          · exact hsame rfl rfl
  | readFetch p =>
    unfold readFetchBody
    dsimp only
    split
    · exact h q
    · split
      · exact h q
      · exact hsame rfl rfl
    · split <;> exact hsame rfl rfl
  | getProfile b => cases b <;> exact h q
  | setPort p threshold mask =>
    refine evaluateBacklog_setReader_evaluated (s := s.setPort p { s.ports.get p with mask := mask })
      (rd := { s.readers.get p with threshold := clamp 1 64 threshold.toNat }) ?_ h q
    exact (clamp_mem (by decide) _).1
  | portReset p =>
    rw [portResetBody_eq]
    exact detaching_evaluated rfl rfl rfl rfl (by decide) h q

end

/-- R154 holds of both readers after every operation on the records. -/
theorem evaluated_invariant : RecordsInvariant fun s => ∀ p, s.Evaluated p where
  same hrecords _ hreaders hs p :=
    (hs p).congr (by rw [hreaders]) (State.backlog_congr hrecords (by rw [hreaders]) (by rw [hreaders]))
  insert key d _ hs p := insertRecord_evaluated key d (hs p)
  retire n _ hs p := retireRecords_evaluated n (hs p)
  release n _ hs p := releaseRecords_evaluated n (hs p)
  request hbody hs p := requestBody_evaluated hbody hs p
  reset p := by
    refine ⟨?_, reset_backlogsKept p⟩
    cases p <;> decide

theorem backlogsKept_step {s t : State} (hlegal : s.SettingsLegal) (hs : s.BacklogsKept) (ht : step s = .next t) :
    t.BacklogsKept := by
  obtain ⟨-, -, -, hthreshold⟩ := hlegal
  exact fun p => (evaluated_invariant.keeps_step (fun q => ⟨(hthreshold q).1, hs q⟩) ht p).2

end Sys2Proof.Machine
end

section
/-! The hand-over of a record to a list with room and to a full list (R120 to R122, R129, R130, R133, R154). -/

namespace Sys2Proof.Machine

/-! ### List order by age (R121) -/

/-- Of two indices less than 2^31 slots before a third, list order is the order of their ages (R1, R121). -/
theorem keyOrder_iff_age {a b n : Index} (ha : distance a n < 2147483648) (hb : distance b n < 2147483648) :
    (a = b ∨ earlier a b = true) ↔ distance b n ≤ distance a n := by
  constructor
  · rintro (rfl | h)
    · exact le_rfl
    · exact ((earlier_iff_age ha hb).1 h).le
  · intro h
    cases hearlier : earlier a b with
    | true => exact .inr rfl
    | false =>
      refine .inl (eq_of_not_earlier ha hb hearlier (Bool.eq_false_iff.2 fun hba => ?_))
      exact absurd ((earlier_iff_age hb ha).1 hba) (Nat.not_lt.2 h)

theorem age_le_of_not_earlier {a b n : Index} (ha : distance a n < 2147483648) (hb : distance b n < 2147483648)
    (h : earlier b a = false) : distance b n ≤ distance a n :=
  Nat.le_of_not_lt fun hlt => absurd ((earlier_iff_age hb ha).2 hlt) (by rw [h]; decide)

theorem pairwise_insert {α : Type} {R : α → α → Prop} {before after : List α} {x : α}
    (h : (before ++ after).Pairwise R) (hbefore : ∀ y ∈ before, R y x) (hafter : ∀ y ∈ after, R x y) :
    (before ++ x :: after).Pairwise R := by
  obtain ⟨hb, ha, hacross⟩ := List.pairwise_append.1 h
  refine List.pairwise_append.2 ⟨hb, List.pairwise_cons.2 ⟨hafter, ha⟩, fun y hy z hz => ?_⟩
  rcases List.mem_cons.1 hz with rfl | hz
  · exact hbefore y hy
  · exact hacross y hy z hz

/-! ### The place and the serial of a record handed over -/

section
variable {l : PickList} {key : Index} {d : Detail} {before after : List Record} {n : Index}

theorem PickList.inserted_split (l : PickList) (key : Index) (d : Detail) :
    ∃ before after, l.records = before ++ after
      ∧ l.inserted key d = { l with
          records := before ++ l.handed key d :: after, nextSerial := (l.handed key d).serial + 1 }
      ∧ (∀ x ∈ before, earlier key x.key = false) ∧ ∀ x, after.head? = some x → earlier key x.key = true := by
  obtain ⟨before, after, hrecords, hplaced, hbefore, hafter⟩ := placeRecord_split (l.handed key d) l.records
  exact ⟨before, after, hrecords, by rw [PickList.inserted, hplaced], hbefore, hafter⟩

/-- In a list in order, everything after the place has a later key. -/
theorem later_after_place (hkey : distance key n < 2147483648)
    (hages : ∀ x ∈ before ++ after, distance x.key n < 2147483648)
    (horder : (before ++ after).Pairwise fun x y => x.key = y.key ∨ earlier x.key y.key = true)
    (hhead : ∀ x, after.head? = some x → earlier key x.key = true) : ∀ x ∈ after, earlier key x.key = true := by
  cases after with
  | nil => exact fun x hx => absurd hx List.not_mem_nil
  | cons y ys =>
    have hafter := (List.pairwise_append.1 horder).2.1
    have hage {x : Record} (hx : x ∈ y :: ys) := hages x (List.mem_append_right _ hx)
    have hy := (earlier_iff_age hkey (hage List.mem_cons_self)).1 (hhead y rfl)
    intro x hx
    refine (earlier_iff_age hkey (hage hx)).2 ?_
    rcases List.mem_cons.1 hx with rfl | hys
    · exact hy
    · have hle := (keyOrder_iff_age (hage List.mem_cons_self) (hage hx)).1 ((List.pairwise_cons.1 hafter).1 x hys)
      exact hle.trans_lt hy

/-- A record at its place leaves a list in order. -/
theorem order_at_place {r : Record} (hr : r.key = key) (hkey : distance key n < 2147483648)
    (hages : ∀ x ∈ before ++ after, distance x.key n < 2147483648)
    (horder : (before ++ after).Pairwise fun x y => x.key = y.key ∨ earlier x.key y.key = true)
    (hbefore : ∀ x ∈ before, earlier key x.key = false) (hafter : ∀ x ∈ after, earlier key x.key = true) :
    (before ++ r :: after).Pairwise fun x y => x.key = y.key ∨ earlier x.key y.key = true := by
  subst hr
  refine pairwise_insert horder (fun x hx => ?_) fun x hx => .inr (hafter x hx)
  have hx' := hages x (List.mem_append_left _ hx)
  exact (keyOrder_iff_age hx' hkey).2 (age_le_of_not_earlier hx' hkey (hbefore x hx))

/-- What R120 to R122 ask of the record handed over and of its place, in the words of the statements. -/
structure Placed (l : PickList) (key : Index) (d : Detail) (before after : List Record) (r : Record) : Prop where
  records : l.records = before ++ after
  inserted : l.inserted key d = { l with records := before ++ r :: after, nextSerial := r.serial + 1 }
  atKey : r.key = key
  ofDetail : r.detail = d
  held : r.released = false
  unmarked : ∀ p, r.marks.get p = false
  place : ∀ x ∈ before, earlier key x.key = false
  head : ∀ x, after.head? = some x → earlier key x.key = true
  ordered : ∀ n : Index, (n - key).toNat < 2147483648 → (∀ x ∈ l.records, (n - x.key).toNat < 2147483648) →
    l.records.Pairwise (fun x y => x.key = y.key ∨ earlier x.key y.key = true) →
    (∀ x ∈ after, earlier key x.key = true)
    ∧ (before ++ r :: after).Pairwise (fun x y => x.key = y.key ∨ earlier x.key y.key = true)
  serial_ne : ∀ x ∈ l.records, x.serial ≠ r.serial
  serial_next : (∀ x ∈ l.records, x.serial ≠ l.nextSerial) → r.serial = l.nextSerial
  serial_first : ∃ k : Nat, k < 64 ∧ r.serial = l.nextSerial + BitVec.ofNat 16 k
    ∧ ∀ j, j < k → ∃ x ∈ l.records, x.serial = l.nextSerial + BitVec.ofNat 16 j

theorem PickList.placed (hroom : l.records.length < 64) (key : Index) (d : Detail) :
    ∃ before after r, Placed l key d before after r := by
  obtain ⟨before, after, hrecords, hinserted, hbefore, hhead⟩ := PickList.inserted_split l key d
  obtain ⟨k, hk, hserial, hbelow, hfree⟩ := freeSerial_of_short (used := l.records.map Record.serial)
    (by rwa [List.length_map]) l.nextSerial
  have hcarried {j : Nat} (hj : j < k) : ∃ x ∈ l.records, x.serial = l.nextSerial + BitVec.ofNat 16 j :=
    List.mem_map.1 (hbelow j hj)
  refine ⟨before, after, l.handed key d, hrecords, hinserted, rfl, rfl, rfl, Ports.get_all false, hbefore, hhead,
    fun n hkey hages horder => ?_, fun x hx heq => hfree (List.mem_map.2 ⟨x, hx, heq⟩), fun hunused => ?_,
    k, hk, hserial, fun j hj => hcarried hj⟩
  · rw [hrecords] at hages horder
    have hlater := later_after_place hkey hages horder hhead
    exact ⟨hlater, order_at_place rfl hkey hages horder hbefore hlater⟩
  · cases k with
    | zero => exact hserial.trans (BitVec.add_zero _)
    | succ k =>
      obtain ⟨x, hx, heq⟩ := hcarried (Nat.succ_pos k)
      exact absurd (heq.trans (BitVec.add_zero _)) (hunused x hx)

end

/-- Settles O20: the record stands at the place of `PickList.placed`, and the near-full notice comes with the 56th. -/
theorem insertionPlacesARecord : Obligations.InsertionPlacesARecord := by
  unfold Obligations.InsertionPlacesARecord
  intro key d s _ hroom
  obtain ⟨before, after, r, hplaced⟩ := PickList.placed hroom key d
  have hinsert := (insertRecord_of_not_full hroom key d).trans (by rw [hplaced.inserted])
  have hlength : (before ++ r :: after).length = s.list.records.length + 1 := by
    rw [hplaced.records, List.length_append, List.length_append, List.length_cons, Nat.add_assoc]
  have hlist := (congrArg State.list hinsert).trans (nearFullRise_list _)
  refine ⟨before, after, r, hplaced.records, congrArg PickList.records hlist, hplaced.atKey, hplaced.ofDetail,
    hplaced.held, hplaced.unmarked, hplaced.place, hplaced.head, hplaced.ordered, hplaced.serial_ne,
    hplaced.serial_next, hplaced.serial_first, congrArg PickList.nextSerial hlist, fun harmed hcount => ?_,
    fun hquiet => ?_⟩
  · have hdue := hinsert.trans (nearFullRise_of_due harmed (by rw [hlength, hcount]))
    refine ⟨by rw [hdue]; rfl, fun p => ?_, hdue⟩
    rw [hdue]
    cases p <;> exact (noticeIn_noticeAdd _ _ _).trans (by simp)
  · exact hinsert.trans (nearFullRise_of_quiet
      (hquiet.imp_right fun hne heq => hne (Nat.succ.inj (hlength.symm.trans heq))))

/-! ### A full list (R129, R130, R154) -/

theorem Reader.noticeIn_noticesAt {n : Notice} (hn : n ≠ .backlog) (rd : Reader) (b : Nat) (set : BitVec 8) :
    noticeIn n (rd.noticesAt b set) = noticeIn n set := by
  unfold Reader.noticesAt
  split
  · rw [noticeIn_noticeAdd, decide_eq_false hn, Bool.or_false]
  · rfl

/-- A loss reaches readers and ports and nothing else. -/
theorem loseRecordBoth_eq (r : Record) (s : State) :
    loseRecordBoth r s =
      { s with readers := (loseRecordBoth r s).readers, ports := (loseRecordBoth r s).ports } := by
  simp only [loseRecordBoth, evaluateBacklogs, evaluateBacklog_eq, loseRecord_eq]

theorem Reader.losing_of_loses {rd : Reader} {p : Port} {r : Record} (h : rd.loses p r = true) :
    rd.losing p r = { rd with delivered := rd.delivered.erase r.serial } := by rw [Reader.losing, if_pos h]

theorem Reader.losing_of_not_loses {rd : Reader} {p : Port} {r : Record} (h : rd.loses p r = false) :
    rd.losing p r = rd := by rw [Reader.losing, if_neg (by rw [h]; decide)]

theorem Reader.loses_iff (rd : Reader) (p : Port) (r : Record) :
    rd.loses p r = true ↔ rd.attached = true ∧ r.marks.get p = false := by
  rw [Reader.loses, Bool.and_eq_true, Bool.not_eq_true']

/-- Settles O21: the head is lost as `loseRecordBoth_reader` says, and the record placed as in a list with room. -/
theorem fullListEvictsItsHead : Obligations.FullListEvictsItsHead := by
  unfold Obligations.FullListEvictsItsHead
  intro key d s t head more hrecords hmore _ ht
  have hfull : 64 ≤ s.list.records.length := by rw [hrecords, List.length_cons, hmore]
  have hinsert := ht.trans (insertRecord_of_full hrecords hfull key d)
  obtain ⟨before, after, r, hplaced⟩ := PickList.placed (l := (s.setRecords more).list) (by
    show more.length < 64
    omega) key d
  have hlist : t.list = { s.list with records := before ++ r :: after, nextSerial := r.serial + 1 } :=
    (congrArg State.list hinsert).trans hplaced.inserted
  have hbacklog (p : Port) : t.backlog p = (loseRecordBoth head (s.setRecords more)).backlog p := by
    rw [hinsert]
    refine State.backlog_inserted (l := (s.setRecords more).list) ?_ rfl rfl
    rw [loseRecordBoth_list]
  have hreader (p : Port) : t.readers.get p = ((s.readers.get p).losing p head).evaluatedAt (t.backlog p) := by
    rw [hbacklog, hinsert]
    exact loseRecordBoth_reader head (s.setRecords more) p
  have hport (p : Port) : t.ports.get p = { s.ports.get p with
      notices := (s.readers.get p).noticesAt (t.backlog p)
        ((s.readers.get p).lossNotices p head (s.ports.get p).notices) } := by
    rw [hbacklog, hinsert]
    exact loseRecordBoth_port head (s.setRecords more) p
  refine ⟨?_, by rw [hlist], ?_, fun p => by rw [hport], ⟨before, after, r, hplaced.records, by rw [hlist],
    hplaced.atKey, hplaced.ofDetail, hplaced.held, hplaced.unmarked, hplaced.place, hplaced.head, hplaced.ordered,
    hplaced.serial_ne, hplaced.serial_next, hplaced.serial_first, by rw [hlist]⟩,
    fun p => ⟨fun hattached hmark => ?_, fun hquiet => ?_⟩⟩
  · have hlength : (before ++ after).length = 63 := hplaced.records ▸ hmore
    rw [hlist]
    simp only [List.length_append, List.length_cons] at hlength ⊢
    omega
  · rw [hinsert, loseRecordBoth_eq]
    rfl
  · have hloses := ((s.readers.get p).loses_iff p head).2 ⟨hattached, hmark⟩
    have hnotices : (t.ports.get p).notices =
        (s.readers.get p).noticesAt (t.backlog p) (noticeAdd .lost (s.ports.get p).notices) := by
      rw [hport, Reader.lossNotices, if_pos hloses]
    refine ⟨?_, by rw [hreader, Reader.losing_of_loses hloses], hnotices⟩
    rw [State.Noticed, hnotices, Reader.noticeIn_noticesAt (by decide), noticeIn_noticeAdd]
    simp
  · have hloses : (s.readers.get p).loses p head = false := by
      refine Bool.eq_false_iff.2 fun hloses => ?_
      obtain ⟨hattached, hmark⟩ := ((s.readers.get p).loses_iff p head).1 hloses
      rcases hquiet with h | h
      · exact absurd (hattached.symm.trans h) (by decide)
      · exact absurd (hmark.symm.trans h) (by decide)
    have hnotices : (t.ports.get p).notices =
        (s.readers.get p).noticesAt (t.backlog p) (s.ports.get p).notices := by
      rw [hport, Reader.lossNotices, if_neg (by rw [hloses]; decide)]
    exact ⟨by rw [hreader, Reader.losing_of_not_loses hloses], hnotices,
      by rw [hnotices, Reader.noticeIn_noticesAt (by decide)]⟩

end Sys2Proof.Machine
end

section
/-! The requests of the readers, each with its whole next state (R127, R133, R140 to R156, R187). -/

namespace Sys2Proof.Machine

/-! ### Requests at an open port (R172, R173) -/

section
variable {s t : State} {p : Port} {clocks : Nat} {body : State → State × Response} {r : Response}

theorem transact_of_body (hopen : s.PortsOpen) (h : body (openTransaction p clocks s) = (t, r)) :
    transact p clocks body s = respond p r t := by rw [transact_of_open hopen, h]

/-- A request that finds nothing to do is answered and changes nothing else. -/
theorem transact_unchanged (hopen : s.PortsOpen)
    (h : body (openTransaction p clocks s) = (openTransaction p clocks s, r)) :
    transact p clocks body s = s.answered p clocks r :=
  (transact_of_body hopen h).trans (respond_openTransaction p clocks r s)

/-- The response to a request that changed its reader, and at most the list, and evaluated the backlog (R154). -/
theorem respond_evaluateBacklog {l : PickList} {rd : Reader} {b : Nat}
    (hb : (if rd.attached then l.records.countP (available p rd) else 0) = b) (r : Response) :
    respond p r (evaluateBacklog p { openTransaction p clocks s with list := l, readers := s.readers.set p rd }) =
      { s with
        list := l
        readers := s.readers.set p (rd.evaluatedAt b)
        ports := s.ports.set p { s.ports.get p with
          response := r, lockOut := false, selected := false
          dout := shiftOut (s.ports.get p).response clocks
          notices := rd.noticesAt b (s.ports.get p).notices } } := by
  have hbacklog : State.backlog
      { openTransaction p clocks s with list := l, readers := s.readers.set p rd } p = b := by
    rw [State.backlog_eq_countP, ← hb]
    simp only [Ports.get_set_same]
  rw [evaluateBacklog_eq, hbacklog]
  simp only [respond, openTransaction, State.setPort, Ports.get_set_same, Ports.set_set]

end

/-! ### ATTACH (R140 to R142) -/

/-- A record re-marked, to a reader with an empty sequence. -/
theorem available_mark_of_empty (p : Port) {rd : Reader} (h : rd.delivered = []) (m : Bool) (r : Record) :
    available p rd (r.mark p m) = (r.released && !m) := by
  rw [available, h, Record.mark_released, Record.mark_marks, Ports.get_set_same, List.contains_nil, Bool.not_false,
    Bool.and_true]

/-- ATTACH in either mode, with the backlog that its marks leave. -/
theorem transact_attachBody {s : State} {p : Port} {clocks : Nat} {m : Bool} {rd : Reader} {left : List Record}
    {b : Nat} (hopen : s.PortsOpen) (hrd : rd = { s.readers.get p with attached := true, delivered := [] })
    (hleft : s.list.records.filter (fun r => !(r.released && m
      && (!(s.readers.get p.other).attached || r.marks.get p.other))) = left)
    (hb : left.countP (fun r => r.released && !m) = b) :
    transact p clocks (attachBody p m) s =
      { s with
        list := { s.list with
          records := left.map (Record.mark · p m)
          nearFullArmed := s.list.nearFullArmed || decide (left.length < 48) }
        readers := s.readers.set p (rd.evaluatedAt b)
        ports := s.ports.set p { s.ports.get p with
          response := .attached b, lockOut := false, selected := false
          dout := shiftOut (s.ports.get p).response clocks
          notices := rd.noticesAt b (s.ports.get p).notices } } := by
  have hcount : (if rd.attached then (left.map (Record.mark · p m)).countP (available p rd) else 0) = b := by
    have hempty : rd.delivered = [] := by rw [hrd]
    rw [if_pos (by rw [hrd]), List.countP_map, ← hb]
    exact List.countP_congr fun r _ => by rw [Function.comp_apply, available_mark_of_empty p hempty]
  have hstate : attachReader p m (openTransaction p clocks s) = evaluateBacklog p
      { openTransaction p clocks s with
        list := { s.list with
          records := left.map (Record.mark · p m)
          nearFullArmed := s.list.nearFullArmed || decide (left.length < 48) }
        readers := s.readers.set p rd } := by
    rw [attachReader_eq, hrd, ← hleft]
    rfl
  have hanswer : (attachReader p m (openTransaction p clocks s)).backlog p = b := by
    rw [hstate, evaluateBacklog_backlog, State.backlog_eq_countP, ← hcount]
    simp only [Ports.get_set_same]
  rw [transact_of_body (t := attachReader p m (openTransaction p clocks s)) (r := .attached b) hopen
    (by rw [attachBody, hanswer]), hstate]
  exact respond_evaluateBacklog hcount _

/-- Settles O51: with ALL nothing is confirmed, so nothing goes; with FROM_NOW what the other has confirmed goes. -/
theorem attachesMarkTheRecords : Obligations.AttachesMarkTheRecords := by
  unfold Obligations.AttachesMarkTheRecords
  intro s p rest hopen
  have hclocks : 8 + requestClocks rest = 16 + rest.length := by
    rw [requestClocks]
    omega
  refine ⟨fun b rd hb hrd => ?_, fun left rd hleft hrd => ?_⟩
  · show execAttachAll p rest s = _
    rw [execAttachAll, hclocks, transact_attachBody (left := s.list.records) (b := b) hopen hrd (by simp)
      (by rw [hb, List.countP_eq_length_filter]; simp)]
    rfl
  · show execAttachFromNow p rest s = _
    rw [execAttachFromNow, hclocks, transact_attachBody (left := left) (b := 0) hopen hrd (by simp [hleft])
      (by simp)]
    rfl

/-! ### DETACH and PORT RESET (R143, R187) -/

/-- Settles O52: both run the removal test on cleared marks. -/
theorem detachAndPortResetClearTheReader : Obligations.DetachAndPortResetClearTheReader := by
  unfold Obligations.DetachAndPortResetClearTheReader
  intro s p rest left hopen hleft
  refine ⟨fun hdetached => ?_, fun hattached => ?_, ?_⟩
  · show execDetach p rest s = _
    exact congrArg _ (transact_unchanged hopen (if_neg (by
      show ¬ (s.readers.get p).attached = true
      rw [hdetached]
      decide)))
  · show execDetach p rest s = _
    refine congrArg _ ((transact_of_body hopen ((if_pos hattached).trans
      (congrArg (·, Response.ok) (detachReader_eq _ p)))).trans ?_)
    rw [hleft, ← respond_openTransaction]
    rfl
  · show execPortReset p rest s = _
    refine congrArg _ ((transact_of_body hopen (portResetBody_eq _ p)).trans ?_)
    rw [hleft]
    simp only [respond, openTransaction, State.setPort, Ports.get_set_same, Ports.set_set]
    rfl

end Sys2Proof.Machine
end

section
/-! The delivered sequence: TAKE, CONFIRM and REWIND (R134, R145, R148, R151, R154). -/

namespace Sys2Proof.Machine

section
variable {s : State} {p : Port} {clocks : Nat}

/-! ### TAKE (R134, R145) -/

theorem State.available_iff (s : State) (p : Port) (r : Record) :
    available p (s.readers.get p) r = true ↔ s.Available p r := by
  simp [available, State.Available, and_assoc]

theorem takeBody_detached (h : (s.readers.get p).attached = false) : takeBody p s = (s, .notAttached) :=
  if_pos (by rw [h]; rfl)

theorem takeBody_of_full (h : (s.readers.get p).attached = true) (hfull : 16 ≤ (s.readers.get p).delivered.length) :
    takeBody p s = (s, .windowFull) :=
  (if_neg (by rw [h]; decide)).trans (if_pos hfull)

theorem takeBody_of_none (h : (s.readers.get p).attached = true) (hroom : (s.readers.get p).delivered.length < 16)
    (hnone : s.firstAvailable p = none) : takeBody p s = (s, .none) :=
  (if_neg (by rw [h]; decide)).trans ((if_neg (Nat.not_le.2 hroom)).trans (by rw [hnone]))

theorem takeBody_of_first {r : Record} (h : (s.readers.get p).attached = true)
    (hroom : (s.readers.get p).delivered.length < 16) (hfirst : s.firstAvailable p = some r) :
    takeBody p s = (deliver p r s, .taken ((deliver p r s).backlog p) r) :=
  (if_neg (by rw [h]; decide)).trans ((if_neg (Nat.not_le.2 hroom)).trans (by rw [hfirst]))

/-- A delivered serial is one record's, and only that record ceases to be available (R120, R134). -/
theorem countP_available_delivered {before after : List Record} {r : Record} {rd : Reader}
    (hserials : ((before ++ r :: after).map Record.serial).Nodup) (hr : available p rd r = true) :
    (before ++ r :: after).countP (available p { rd with delivered := rd.delivered ++ [r.serial] }) + 1 =
      (before ++ r :: after).countP (available p rd) := by
  have hne : ∀ x ∈ before ++ after, x.serial ≠ r.serial := by
    rw [List.perm_middle.map Record.serial |>.nodup_iff, List.map_cons, List.nodup_cons] at hserials
    exact fun x hx heq => hserials.1 (List.mem_map.2 ⟨x, hx, heq⟩)
  have hsame : ∀ x ∈ before ++ after,
      available p { rd with delivered := rd.delivered ++ [r.serial] } x = available p rd x := fun x hx => by
    simp [available, hne x hx]
  have hgone : ¬ available p { rd with delivered := rd.delivered ++ [r.serial] } r = true := by simp [available]
  rw [List.perm_middle.countP_eq, List.perm_middle.countP_eq, List.countP_cons_of_neg hgone,
    List.countP_cons_of_pos hr, List.countP_congr fun x hx => by rw [hsame x hx]]

/-- Settles O53: the conditions in order, and the delivery of the record found. -/
theorem takeDeliversTheFirstAvailable : Obligations.TakeDeliversTheFirstAvailable := by
  unfold Obligations.TakeDeliversTheFirstAvailable
  rintro s p rest rd hopen rfl
  refine ⟨fun hdetached => ?_, fun hattached hfull => ?_, fun hattached hroom hnone => ?_,
    fun before after r b hattached hroom hrecords havailable hbefore hkept hb => ?_⟩
  · show execTake p rest s = _
    exact congrArg _ (transact_unchanged hopen (takeBody_detached hdetached))
  · show execTake p rest s = _
    exact congrArg _ (transact_unchanged hopen (takeBody_of_full hattached hfull))
  · show execTake p rest s = _
    have hfirst : (openTransaction p (requestClocks rest) s).firstAvailable p = none :=
      List.find?_eq_none.2 fun r hr h => hnone r hr ((s.available_iff p r).1 h)
    exact congrArg _ (transact_unchanged hopen
      (takeBody_of_none (s := openTransaction p (requestClocks rest) s) hattached hroom hfirst))
  · show execTake p rest s = _
    have havail := (s.available_iff p r).2 havailable
    have hfirst : (openTransaction p (requestClocks rest) s).firstAvailable p = some r :=
      List.find?_eq_some_iff_append.2 ⟨havail, before, after, hrecords, fun x hx =>
        Bool.not_eq_true' _ ▸ Bool.eq_false_iff.2 fun h => hbefore x hx ((s.available_iff p x).1 h)⟩
    have hdeliver : deliver p r (openTransaction p (requestClocks rest) s) = evaluateBacklog p
      { openTransaction p (requestClocks rest) s with
        list := s.list
        readers := s.readers.set p
          { s.readers.get p with delivered := (s.readers.get p).delivered ++ [r.serial] } } := rfl
    have hcount : (if (s.readers.get p).attached then s.list.records.countP
        (available p { s.readers.get p with delivered := (s.readers.get p).delivered ++ [r.serial] }) else 0) = b := by
      rw [State.backlog_eq_countP, if_pos hattached] at hb
      rw [if_pos hattached]
      obtain ⟨-, hserials, -, -⟩ := hkept
      rw [hrecords] at hb hserials ⊢
      exact Nat.succ.inj ((countP_available_delivered hserials havail).trans hb.symm)
    have hanswer : (deliver p r (openTransaction p (requestClocks rest) s)).backlog p = b := by
      rw [hdeliver, evaluateBacklog_backlog, State.backlog_eq_countP, ← hcount]
      simp only [Ports.get_set_same]
    have htaken := takeBody_of_first (s := openTransaction p (requestClocks rest) s) hattached hroom hfirst
    rw [hanswer] at htaken
    refine congrArg _ ((transact_of_body hopen htaken).trans ?_)
    rw [hdeliver]
    exact respond_evaluateBacklog
      (rd := { s.readers.get p with delivered := (s.readers.get p).delivered ++ [r.serial] }) hcount _

/-! ### CONFIRM (R148) -/

theorem confirmBody_detached {v : Serial} (h : (s.readers.get p).attached = false) :
    confirmBody p v s = (s, .notAttached) :=
  if_pos (by rw [h]; rfl)

theorem confirmBody_of_stranger {v : Serial} (h : (s.readers.get p).attached = true)
    (hv : v ∉ (s.readers.get p).delivered) : confirmBody p v s = (s, .badParam) :=
  (if_neg (by rw [h]; decide)).trans (if_pos (by simpa using hv))

theorem confirmBody_of_delivered {v : Serial} (h : (s.readers.get p).attached = true)
    (hv : v ∈ (s.readers.get p).delivered) :
    confirmBody p v s = (confirmUpTo p v s, .counted (deliveredUpTo v (s.readers.get p).delivered).length) :=
  (if_neg (by rw [h]; decide)).trans (if_neg (by simpa using hv))

theorem deliveredUpTo_split {v : Serial} {before : List Serial} (h : v ∉ before) (after : List Serial) :
    deliveredUpTo v (before ++ v :: after) = before ++ [v] ∧ deliveredAfter v (before ++ v :: after) = after := by
  have hsplit : before ++ v :: after = (before ++ [v]) ++ after := by simp
  have hindex : (before ++ v :: after).idxOf v + 1 = (before ++ [v]).length := by
    rw [List.idxOf_append_of_notMem h, List.idxOf_cons_self, List.length_append]
    rfl
  exact ⟨by rw [deliveredUpTo, hindex, hsplit, List.take_left'  rfl],
    by rw [deliveredAfter, hindex, hsplit, List.drop_left' rfl]⟩

/-- Two bytes side by side, most significant first, are the serial they carry (R190). -/
theorem serial_eq_append (hi lo : Byte) : BitVec.ofNat 16 (word16 hi lo) = hi ++ lo := by
  have hlo : lo.toNat < 2 ^ 8 := lo.isLt
  have hhi := hi.isLt
  apply BitVec.eq_of_toNat_eq
  rw [BitVec.toNat_append, ← Nat.shiftLeft_add_eq_or_of_lt hlo, Nat.shiftLeft_eq, word16, BitVec.toNat_ofNat]
  omega

theorem exec_confirm {rest more : List Bool} {hi lo : Byte} (hrest : rest = bitsOfBytes [hi, lo] ++ more) (p : Port)
    (s : State) :
    exec (.confirm p rest) s = .next (transact p (8 + rest.length) (confirmBody p (hi ++ lo)) s) := by
  have hbytes : wholeBytes rest = [hi, lo] ++ wholeBytes more := by rw [hrest, wholeBytes_bitsOfBytes]
  show execConfirm p rest s = _
  rw [execConfirm, hbytes, ← serial_eq_append]
  rfl

/-! ### REWIND (R151) -/

theorem rewindBody_detached (h : (s.readers.get p).attached = false) : rewindBody p s = (s, .notAttached) :=
  if_pos (by rw [h]; rfl)

theorem rewindBody_of_empty (h : (s.readers.get p).attached = true) (hempty : (s.readers.get p).delivered = []) :
    rewindBody p s = (s, .counted 0) :=
  (if_neg (by rw [h]; decide)).trans (if_pos (by rw [hempty]; rfl))

theorem rewindBody_of_delivered (h : (s.readers.get p).attached = true) (hsome : (s.readers.get p).delivered ≠ []) :
    rewindBody p s = (evaluateBacklog p (s.setReader p { s.readers.get p with delivered := [] }),
      .counted (s.readers.get p).delivered.length) :=
  (if_neg (by rw [h]; decide)).trans (if_neg (by simpa using hsome))

/-- The records delivered and not confirmed are as many as the sequence is long (R138, R139). -/
theorem length_delivered (hkept : s.ListKept) (hreaders : s.ReadersKept) :
    (s.list.records.filter fun r =>
        r.released && !r.marks.get p && (s.readers.get p).delivered.contains r.serial).length =
      (s.readers.get p).delivered.length := by
  obtain ⟨-, hserials, -, -⟩ := hkept
  obtain ⟨-, -, hnodup, hpresent⟩ := hreaders p
  generalize (s.readers.get p).delivered = vs at hnodup hpresent ⊢
  rw [← List.length_map (f := Record.serial)]
  refine ((List.perm_ext_iff_of_nodup (hserials.sublist (List.filter_sublist.map _)) hnodup).2
    fun v => ⟨fun hv => ?_, fun hv => ?_⟩).length_eq
  · obtain ⟨r, hr, rfl⟩ := List.mem_map.1 hv
    have hcontains := (Bool.and_eq_true_iff.1 (List.mem_filter.1 hr).2).2
    simpa using hcontains
  · obtain ⟨r, hr, rfl, hreleased, hmark⟩ := hpresent v hv
    exact List.mem_map.2 ⟨r, List.mem_filter.2 ⟨hr, by simp [hreleased, hmark, hv]⟩, rfl⟩

/-- With the sequence emptied, what was delivered is available again (R134, R151). -/
theorem countP_available_rewound (hattached : (s.readers.get p).attached = true) (hkept : s.ListKept)
    (hreaders : s.ReadersKept) :
    s.list.records.countP (available p { s.readers.get p with delivered := [] }) =
      s.backlog p + (s.readers.get p).delivered.length := by
  rw [State.backlog_eq_countP, if_pos hattached, ← length_delivered hkept hreaders, ← List.countP_eq_length_filter,
    List.countP_eq_countP_filter_add _ _ fun r => !(s.readers.get p).delivered.contains r.serial]
  simp only [List.countP_filter, Bool.not_not]
  refine congrArg₂ (· + ·) (List.countP_congr fun r _ => ?_) (List.countP_congr fun r _ => ?_)
  all_goals simp [available, and_assoc]

/-- Settles O54: a serial in the sequence splits it at its first place, and a rewound reader has all it had. -/
theorem confirmAndRewindMoveTheSequence : Obligations.ConfirmAndRewindMoveTheSequence := by
  unfold Obligations.ConfirmAndRewindMoveTheSequence
  rintro s p rest more hi lo rd hopen rfl
  refine ⟨fun hrest => ?_, fun hdetached => ?_, fun hattached hempty => ?_, fun hattached hsome hkept hreaders => ?_⟩
  · rw [exec_confirm hrest]
    refine ⟨fun hdetached => ?_, fun hattached hv => ?_, fun before after left hattached hsplit hv hleft => ?_⟩
    · rw [transact_unchanged hopen (confirmBody_detached hdetached)]
    · rw [transact_unchanged hopen (confirmBody_of_stranger hattached hv)]
    · have hmem : hi ++ lo ∈ (s.readers.get p).delivered := by
        rw [hsplit]
        exact List.mem_append_right _ List.mem_cons_self
      obtain ⟨hupTo, hafter⟩ := deliveredUpTo_split hv after
      refine congrArg _ ((transact_of_body hopen
        ((confirmBody_of_delivered (s := openTransaction p (8 + rest.length) s) hattached hmem).trans
          (congrArg (·, _) (confirmUpTo_eq _ p _ hattached)))).trans ?_)
      have hreader : (openTransaction p (8 + rest.length) s).readers.get p = s.readers.get p := rfl
      rw [hreader, hsplit, hupTo, hafter, hleft, List.length_append, ← respond_openTransaction]
      rfl
  · show execRewind p rest s = _
    exact congrArg _ (transact_unchanged hopen (rewindBody_detached hdetached))
  · show execRewind p rest s = _
    exact congrArg _ (transact_unchanged hopen (rewindBody_of_empty hattached hempty))
  · show execRewind p rest s = _
    refine congrArg _ ((transact_of_body hopen (rewindBody_of_delivered hattached hsome)).trans ?_)
    exact respond_evaluateBacklog (l := s.list) (rd := { s.readers.get p with delivered := [] })
      ((if_pos hattached).trans (countP_available_rewound hattached hkept hreaders)) _

end

end Sys2Proof.Machine
end

section
/-! RETIREMENT and RELEASE (R124, R125, R127, R130, R132, R133, R154): several records lost one after another, and both
halves of the list's handling as commands. -/

namespace Sys2Proof.Machine

/-! ### Records lost one after another (R130, R154) -/

section
variable (rd : Reader) (p : Port)

theorem Reader.foldl_losing_evaluatedAt (b : Nat) (rs : List Record) :
    rs.foldl (Reader.losing · p) (rd.evaluatedAt b) = (rs.foldl (Reader.losing · p) rd).evaluatedAt b := by
  induction rs generalizing rd with
  | nil => rfl
  | cons r rs ih => exact ih (rd.losing p r)

/-- An evaluation at the backlog that the last one saw changes nothing (R154). -/
theorem Reader.evaluatedAt_evaluatedAt (b : Nat) : (rd.evaluatedAt b).evaluatedAt b = rd.evaluatedAt b := rfl

theorem Reader.noticesAt_evaluatedAt (b : Nat) (set : BitVec 8) : (rd.evaluatedAt b).noticesAt b set = set :=
  Reader.noticesAt_of_quiet (fun ⟨harmed, hle⟩ => absurd (of_decide_eq_true harmed) (Nat.not_lt.2 hle)) set

theorem noticeAdd_comm (m n : Notice) (set : BitVec 8) :
    noticeAdd m (noticeAdd n set) = noticeAdd n (noticeAdd m set) := by
  rw [noticeAdd, noticeAdd, noticeAdd, noticeAdd, BitVec.or_assoc, BitVec.or_assoc, BitVec.or_comm (BitVec.ofNat 8 _)]

theorem noticeAdd_self (n : Notice) (set : BitVec 8) : noticeAdd n (noticeAdd n set) = noticeAdd n set := by
  rw [noticeAdd, noticeAdd, BitVec.or_assoc, BitVec.or_self]

theorem Reader.noticeAdd_noticesAt (n : Notice) (b : Nat) (set : BitVec 8) :
    noticeAdd n (rd.noticesAt b set) = rd.noticesAt b (noticeAdd n set) := by
  unfold Reader.noticesAt
  split
  · exact noticeAdd_comm n .backlog set
  · rfl

/-- Sequences differ by the serials of the records lost, where each that was delivered is lost to the reader. -/
theorem Reader.foldl_losing {rd : Reader} {rs : List Record} (hnodup : rd.delivered.Nodup)
    (h : ∀ r ∈ rs, r.serial ∈ rd.delivered → rd.loses p r = true) :
    rs.foldl (Reader.losing · p) rd =
      { rd with delivered := rd.delivered.filter fun v => !rs.any fun r => decide (r.serial = v) } := by
  induction rs generalizing rd with
  | nil => simp
  | cons r rs ih =>
    have hone : rd.losing p r = { rd with delivered := rd.delivered.filter fun v => !decide (r.serial = v) } := by
      cases hloses : rd.loses p r with
      | true =>
        rw [Reader.losing_of_loses hloses, hnodup.erase_eq_filter]
        simp only [bne, Bool.beq_eq_decide_eq, eq_comm]
      | false =>
        have hnot : r.serial ∉ rd.delivered := fun hv => by
          rw [h r List.mem_cons_self hv] at hloses
          cases hloses
        rw [Reader.losing_of_not_loses hloses, List.filter_eq_self.2 fun v hv => ?_]
        simpa using fun heq : r.serial = v => hnot (heq ▸ hv)
    have hsub : ∀ v ∈ (rd.losing p r).delivered, v ∈ rd.delivered := by
      rw [hone]
      exact fun v hv => (List.mem_filter.1 hv).1
    have hnodup' : (rd.losing p r).delivered.Nodup := by
      rw [hone]
      exact hnodup.filter _
    rw [List.foldl_cons, ih hnodup' fun x hx hv => h x (List.mem_cons_of_mem _ hx) (hsub _ hv), hone]
    simp only [List.filter_filter, List.any_cons, Bool.not_or, Bool.and_comm]

end

section
variable {s : State} {p : Port}

/-- A lost record is in the list no more, so its loss leaves the backlogs (R120, R153). -/
theorem loseRecordBoth_backlog {r : Record} (h : ∀ x ∈ s.list.records, x.serial ≠ r.serial) :
    (loseRecordBoth r s).backlog p = s.backlog p := by
  have hreader := loseRecordBoth_reader r s p
  rw [State.backlog_eq_countP, State.backlog_eq_countP, hreader, loseRecordBoth_list]
  refine if_congr Iff.rfl (List.countP_congr fun x hx => ?_) rfl
  have hcontains : ((s.readers.get p).losing p r).delivered.contains x.serial =
      (s.readers.get p).delivered.contains x.serial := by
    unfold Reader.losing
    dsimp only
    split
    · rw [List.contains_eq_mem, List.contains_eq_mem, decide_eq_decide]
      exact List.mem_erase_of_ne (h x hx)
    · rfl
  show available p ((s.readers.get p).losing p r) x = true ↔ _
  rw [available, available, hcontains]

/-- Records lost one after another: each reader loses what it has not confirmed, and the evaluation at the backlog that
is left counts once. -/
theorem foldl_loseRecordBoth_reader {r : Record} {rs : List Record}
    (h : ∀ r' ∈ r :: rs, ∀ x ∈ s.list.records, x.serial ≠ r'.serial) :
    ((r :: rs).foldl (fun t r => loseRecordBoth r t) s).readers.get p =
      ((r :: rs).foldl (Reader.losing · p) (s.readers.get p)).evaluatedAt (s.backlog p) := by
  have hbacklog := loseRecordBoth_backlog (p := p) (h r List.mem_cons_self)
  have hreader := hbacklog ▸ loseRecordBoth_reader r s p
  induction rs generalizing r s with
  | nil => exact hreader
  | cons r' rs ih =>
    have hrest : ∀ r'' ∈ r' :: rs, ∀ x ∈ (loseRecordBoth r s).list.records, x.serial ≠ r''.serial := by
      rw [loseRecordBoth_list]
      exact fun r'' hr'' => h r'' (List.mem_cons_of_mem _ hr'')
    have hnext := loseRecordBoth_backlog (p := p) (hrest r' List.mem_cons_self)
    rw [List.foldl_cons, ih hrest hnext (hnext ▸ loseRecordBoth_reader r' _ p), hbacklog, hreader,
      Reader.foldl_losing_evaluatedAt, Reader.evaluatedAt_evaluatedAt, List.foldl_cons (a := r)]

theorem foldl_loseRecordBoth_port {r : Record} {rs : List Record}
    (h : ∀ r' ∈ r :: rs, ∀ x ∈ s.list.records, x.serial ≠ r'.serial) :
    ((r :: rs).foldl (fun t r => loseRecordBoth r t) s).ports.get p = { s.ports.get p with
      notices := (s.readers.get p).noticesAt (s.backlog p)
        (if (r :: rs).any ((s.readers.get p).loses p) then noticeAdd .lost (s.ports.get p).notices
         else (s.ports.get p).notices) } := by
  have hbacklog := loseRecordBoth_backlog (p := p) (h r List.mem_cons_self)
  have hport := hbacklog ▸ loseRecordBoth_port r s p
  induction rs generalizing r s with
  | nil =>
    rw [List.any_cons, List.any_nil, Bool.or_false]
    exact hport
  | cons r' rs ih =>
    have hrest : ∀ r'' ∈ r' :: rs, ∀ x ∈ (loseRecordBoth r s).list.records, x.serial ≠ r''.serial := by
      rw [loseRecordBoth_list]
      exact fun r'' hr'' => h r'' (List.mem_cons_of_mem _ hr'')
    have hnext := loseRecordBoth_backlog (p := p) (hrest r' List.mem_cons_self)
    have hreader := hbacklog ▸ loseRecordBoth_reader r s p
    have hloses : (((s.readers.get p).losing p r).evaluatedAt (s.backlog p)).loses p = (s.readers.get p).loses p := rfl
    rw [List.foldl_cons, ih hrest hnext (hnext ▸ loseRecordBoth_port r' _ p), hbacklog, hreader, hport,
      Reader.noticesAt_evaluatedAt, List.any_cons (a := r), hloses, Reader.lossNotices]
    refine congrArg (fun set => ({ s.ports.get p with notices := set } : PortInterface)) ?_
    show (if (r' :: rs).any ((s.readers.get p).loses p) then
      noticeAdd .lost ((s.readers.get p).noticesAt (s.backlog p) _)
      else (s.readers.get p).noticesAt (s.backlog p) _) = _
    cases hmore : (r' :: rs).any ((s.readers.get p).loses p) with
    | false =>
      rw [Bool.or_false]
      rfl
    | true =>
      rw [Bool.or_true, if_pos rfl, if_pos rfl, Reader.noticeAdd_noticesAt]
      split
      · rw [noticeAdd_self]
      · rfl

theorem foldl_loseRecordBoth_backlog {rs : List Record}
    (h : ∀ r ∈ rs, ∀ x ∈ s.list.records, x.serial ≠ r.serial) :
    (rs.foldl (fun t r => loseRecordBoth r t) s).backlog p = s.backlog p := by
  induction rs generalizing s with
  | nil => rfl
  | cons r rs ih =>
    refine (ih ?_).trans (loseRecordBoth_backlog (h r List.mem_cons_self))
    rw [loseRecordBoth_list]
    exact fun r' hr' => h r' (List.mem_cons_of_mem _ hr')

/-! ### RETIREMENT (R130, R132) -/

theorem State.ListKept.eq_of_serial (hkept : s.ListKept) {x y : Record} (hx : x ∈ s.list.records)
    (hy : y ∈ s.list.records) (h : x.serial = y.serial) : x = y :=
  List.inj_on_of_nodup_map hkept.2.1 hx hy h

/-- A record whose serial a sequence holds is lost to its reader (R138, R139). -/
theorem State.loses_of_delivered (hkept : s.ListKept) (hreaders : s.ReadersKept) {r : Record}
    (hr : r ∈ s.list.records) (hdelivered : r.serial ∈ (s.readers.get p).delivered) :
    (s.readers.get p).loses p r = true := by
  obtain ⟨hdetached, -, -, hpresent⟩ := hreaders p
  obtain ⟨x, hx, hserial, -, hmark⟩ := hpresent _ hdelivered
  obtain rfl := hkept.eq_of_serial hx hr hserial
  refine ((s.readers.get p).loses_iff p x).2 ⟨Bool.not_eq_false _ ▸ fun h => ?_, hmark⟩
  rw [(hdetached h).1] at hdelivered
  cases hdelivered

/-- The readers and the ports after a retirement that takes records. -/
theorem retireRecords_reader_port {n : Index} (hkept : s.ListKept) (hreaders : s.ReadersKept)
    (hdue : s.list.records.any (ageLimit n) = true) (p : Port) :
    (retireRecords n s).readers.get p = ({ s.readers.get p with
        delivered := (s.readers.get p).delivered.filter fun v =>
          !s.list.records.any fun r => ageLimit n r && decide (r.serial = v) } : Reader).evaluatedAt
            ((retireRecords n s).backlog p)
      ∧ (retireRecords n s).ports.get p = { s.ports.get p with
          notices := (s.readers.get p).noticesAt ((retireRecords n s).backlog p)
            (if (s.list.records.filter (ageLimit n)).any ((s.readers.get p).loses p) then
              noticeAdd .lost (s.ports.get p).notices else (s.ports.get p).notices) } := by
  have happart : ∀ r ∈ s.list.records.filter (ageLimit n),
      ∀ x ∈ (s.setRecords (s.list.records.filter fun r => !ageLimit n r)).list.records, x.serial ≠ r.serial :=
    fun r hr x hx heq => by
      obtain ⟨hr, hold⟩ := List.mem_filter.1 hr
      obtain ⟨hx, hyoung⟩ := List.mem_filter.1 hx
      rw [hkept.eq_of_serial hx hr heq, hold] at hyoung
      cases hyoung
  have hlosing := Reader.foldl_losing p (rs := s.list.records.filter (ageLimit n)) (hreaders p).2.2.1
    fun r hr => State.loses_of_delivered hkept hreaders (List.mem_filter.1 hr).1
  have hany (v : Serial) : (s.list.records.filter (ageLimit n)).any (fun r => decide (r.serial = v)) =
    s.list.records.any fun r => ageLimit n r && decide (r.serial = v) := List.any_filter
  simp only [hany] at hlosing
  have hbacklog : (retireRecords n s).backlog p =
      (s.setRecords (s.list.records.filter fun r => !ageLimit n r)).backlog p := by
    rw [← foldl_loseRecordBoth_backlog happart, retireRecords_of_due hdue]
    refine State.backlog_congr ?_ rfl rfl
    rw [foldl_loseRecordBoth_list]
    exact List.map_id _
  rw [hbacklog, retireRecords_of_due hdue, ← hlosing]
  obtain ⟨r, rs, hlost⟩ := filter_eq_cons_of_any hdue
  rw [hlost] at happart ⊢
  exact ⟨foldl_loseRecordBoth_reader happart, foldl_loseRecordBoth_port happart⟩

theorem OnlyRecords.sameCore {s t : State} (h : OnlyRecords s t) : s.SameCore t :=
  ⟨h.intake, h.filters, h.ring, h.settings, h.clock, h.resetHeld, h.pending⟩

/-- A set near-full flag, or a count from 48 on, is what a removal that takes nothing leaves (R133). -/
theorem State.ListKept.nearFullArmed_or (hkept : s.ListKept) :
    (s.list.nearFullArmed || decide (s.list.records.length < 48)) = s.list.nearFullArmed := by
  obtain ⟨-, -, -, hclear⟩ := hkept
  cases harmed : s.list.nearFullArmed with
  | true => rfl
  | false => exact decide_eq_false (Nat.not_lt.2 (hclear harmed))

theorem ageLimit_eq_decide (n : Index) (r : Record) : ageLimit n r = decide ((n - r.key).toNat = 2147483647) := by
  rw [ageLimit, distance, Bool.beq_eq_decide_eq]

/-- The list after a retirement, whether or not it takes a record. -/
theorem retireRecords_list_eq {n : Index} (hkept : s.ListKept) :
    (retireRecords n s).list = s.list.thin (fun r => !ageLimit n r) id := by
  cases h : s.list.records.any (ageLimit n) with
  | true => rw [retireRecords_of_due h]
  | false =>
    have hall : s.list.records.filter (fun r => !ageLimit n r) = s.list.records :=
      List.filter_eq_self.2 fun r hr => by simpa using List.any_eq_false.1 h r hr
    rw [retireRecords_of_not_due h, PickList.thin, hall, List.map_id, hkept.nearFullArmed_or]

theorem any_lost_iff (n : Index) (p : Port) (s : State) :
    (s.list.records.filter (ageLimit n)).any ((s.readers.get p).loses p) = true ↔ (s.readers.get p).attached = true
      ∧ ∃ r ∈ s.list.records, (n - r.key).toNat = 2147483647 ∧ r.marks.get p = false := by
  simp only [List.any_eq_true, List.mem_filter, ageLimit_eq_decide, decide_eq_true_eq, Reader.loses_iff]
  exact ⟨fun ⟨r, ⟨hr, hage⟩, hattached, hmark⟩ => ⟨hattached, r, hr, hage, hmark⟩,
    fun ⟨hattached, r, hr, hage, hmark⟩ => ⟨r, ⟨hr, hage⟩, hattached, hmark⟩⟩

/-- A retired record that an attached reader has not confirmed is lost to it (R130). -/
theorem retireRecords_lost {n : Index} (hkept : s.ListKept) (hreaders : s.ReadersKept) {r : Record}
    (hr : r ∈ s.list.records) (hold : ageLimit n r = true) (hattached : (s.readers.get p).attached = true)
    (hmark : r.marks.get p = false) :
    (retireRecords n s).Noticed .lost p ∧ r.serial ∉ ((retireRecords n s).readers.get p).delivered := by
  obtain ⟨hreader, hport⟩ := retireRecords_reader_port hkept hreaders (List.any_eq_true.2 ⟨r, hr, hold⟩) p
  have hlost := (any_lost_iff n p s).2
    ⟨hattached, r, hr, of_decide_eq_true ((ageLimit_eq_decide n r).symm.trans hold), hmark⟩
  constructor
  · rw [State.Noticed, hport, if_pos hlost]
    refine (Reader.noticeIn_noticesAt (by decide) _ _ _).trans ?_
    rw [noticeIn_noticeAdd]
    simp
  · rw [hreader]
    intro hv
    have hkeeps := (List.mem_filter.1 hv).2
    have hgoes : (s.list.records.any fun x => ageLimit n x && decide (x.serial = r.serial)) = true :=
      List.any_eq_true.2 ⟨r, hr, by simp [hold]⟩
    rw [hgoes] at hkeeps
    cases hkeeps

/-! ### RELEASE (R125, R127) -/

theorem releaseDue_iff (h : Nat) (n : Index) (r : Record) :
    releaseDue h n r = true ↔ r.released = false
      ∧ (r.key + BitVec.ofNat 32 h = n ∨ earlier (r.key + BitVec.ofNat 32 h) n = true) := by
  rw [releaseDue, Bool.and_eq_true, Bool.not_eq_true', notLater, Bool.or_eq_true, beq_iff_eq, addSlots]

theorem State.removable_iff (s : State) (r : Record) :
    s.removable r = true ↔ r.released = true ∧ (∃ p, (s.readers.get p).attached = true)
      ∧ ∀ p, (s.readers.get p).attached = true → r.marks.get p = true := by
  have hsome : (∃ p, (s.readers.get p).attached = true) ↔
      (s.readers.get .a).attached = true ∨ (s.readers.get .b).attached = true :=
    ⟨fun ⟨p, hp⟩ => by cases p <;> simp_all, fun h => h.elim (⟨.a, ·⟩) (⟨.b, ·⟩)⟩
  have hall : (∀ p, (s.readers.get p).attached = true → r.marks.get p = true) ↔
      ((s.readers.get .a).attached = true → r.marks.get .a = true)
        ∧ ((s.readers.get .b).attached = true → r.marks.get .b = true) :=
    ⟨fun h => ⟨h .a, h .b⟩, fun h p => by cases p; exacts [h.1, h.2]⟩
  rw [s.removable_eq .a, hsome, hall]
  simp [and_assoc, Port.other, imp_iff_not_or]

/-- Of the records released, those go that every attached reader has confirmed. -/
theorem releaseRecords_eq {n : Index} {due removable : Record → Bool} (hkept : s.ListKept)
    (hdue : ∀ r, due r = true ↔ r.released = false
      ∧ (r.key + BitVec.ofNat 32 s.list.holdback = n ∨ earlier (r.key + BitVec.ofNat 32 s.list.holdback) n = true))
    (hremovable : ∀ r, removable r = true ↔ (∃ p, (s.readers.get p).attached = true)
      ∧ ∀ p, (s.readers.get p).attached = true → r.marks.get p = true)
    (hsome : s.list.records.any due = true) :
    releaseRecords n s = evaluateBacklogs { s with
      list := s.list.thin (fun r => !(due r && removable r))
        (fun r => if due r = true then { r with released := true } else r) } := by
  obtain rfl : due = releaseDue s.list.holdback n :=
    funext fun r => Bool.eq_iff_iff.2 ((hdue r).trans (releaseDue_iff _ n r).symm)
  have hnamed (r : Record) (hr : r ∈ s.list.records) :
      ((s.list.records.filter (releaseDue s.list.holdback n)).map Record.serial).contains r.serial =
        releaseDue s.list.holdback n r := by
    rw [List.contains_eq_mem, ← Bool.decide_coe (releaseDue _ _ _), decide_eq_decide]
    refine ⟨fun hserial => ?_, fun hr' => List.mem_map.2 ⟨r, List.mem_filter.2 ⟨hr, hr'⟩, rfl⟩⟩
    obtain ⟨x, hx, heq⟩ := List.mem_map.1 hserial
    obtain ⟨hx, hxdue⟩ := List.mem_filter.1 hx
    rwa [← hkept.eq_of_serial hx hr heq]
  have hgoes (r : Record) (hr : releaseDue s.list.holdback n r = true) :
      s.removable (r.releaseAt s.list.holdback n) = removable r := by
    rw [Record.releaseAt, if_pos hr]
    exact Bool.eq_iff_iff.2 ((s.removable_iff _).trans (by simpa using (hremovable r).symm))
  have hkeep : s.list.records.filter (fun r =>
      !(((s.list.records.filter (releaseDue s.list.holdback n)).map Record.serial).contains r.serial
        && s.removable (r.releaseAt s.list.holdback n))) =
      s.list.records.filter fun r => !(releaseDue s.list.holdback n r && removable r) := by
    refine List.filter_congr fun r hr => ?_
    rw [hnamed r hr]
    cases hrdue : releaseDue s.list.holdback n r with
    | true => rw [hgoes r hrdue]
    | false => rfl
  rw [releaseRecords_of_due hsome, PickList.thin, hkeep]
  rfl

/-- With nothing due the release step changes nothing (R125). -/
theorem releaseRecords_of_none {n : Index} {due : Record → Bool}
    (hdue : ∀ r, due r = true ↔ r.released = false
      ∧ (r.key + BitVec.ofNat 32 s.list.holdback = n ∨ earlier (r.key + BitVec.ofNat 32 s.list.holdback) n = true))
    (hnone : s.list.records.any due = false) : releaseRecords n s = s := by
  obtain rfl : due = releaseDue s.list.holdback n :=
    funext fun r => Bool.eq_iff_iff.2 ((hdue r).trans (releaseDue_iff _ n r).symm)
  exact releaseRecords_of_not_due hnone

/-- Nothing due, nothing thinned. -/
theorem PickList.thin_of_none {due removable : Record → Bool} (hkept : s.ListKept)
    (hnone : s.list.records.any due = false) :
    s.list.thin (fun r => !(due r && removable r))
      (fun r => if due r = true then { r with released := true } else r) = s.list := by
  have hnot : ∀ r ∈ s.list.records, due r = false := fun r hr => by simpa using List.any_eq_false.1 hnone r hr
  have hall : s.list.records.filter (fun r => !(due r && removable r)) = s.list.records :=
    List.filter_eq_self.2 fun r hr => by rw [hnot r hr, Bool.false_and, Bool.not_false]
  have hmap : s.list.records.map (fun r => if due r = true then { r with released := true } else r) =
      s.list.records := by
    refine (List.map_congr_left fun r hr => ?_).trans (List.map_id _)
    rw [if_neg (by rw [hnot r hr]; decide)]
    rfl
  rw [PickList.thin, hall, hmap, hkept.nearFullArmed_or]

section
variable {n : Index} {due removable : Record → Bool}

/-- The list after a release, whether or not a record is due. -/
theorem releaseRecords_list_eq (hkept : s.ListKept)
    (hdue : ∀ r, due r = true ↔ r.released = false
      ∧ (r.key + BitVec.ofNat 32 s.list.holdback = n ∨ earlier (r.key + BitVec.ofNat 32 s.list.holdback) n = true))
    (hremovable : ∀ r, removable r = true ↔ (∃ p, (s.readers.get p).attached = true)
      ∧ ∀ p, (s.readers.get p).attached = true → r.marks.get p = true) :
    (releaseRecords n s).list = s.list.thin (fun r => !(due r && removable r))
      (fun r => if due r = true then { r with released := true } else r) := by
  cases hany : s.list.records.any due with
  | true => rw [releaseRecords_eq hkept hdue hremovable hany, evaluateBacklogs_list]
  | false => rw [releaseRecords_of_none hdue hany, PickList.thin_of_none hkept hany]

/-- With a record due, both backlogs are evaluated as the release leaves them (R154). -/
theorem releaseRecords_reader_port (h : s.list.records.any (releaseDue s.list.holdback n) = true) (p : Port) :
    (releaseRecords n s).readers.get p = (s.readers.get p).evaluatedAt ((releaseRecords n s).backlog p)
      ∧ (releaseRecords n s).ports.get p = { s.ports.get p with
          notices := (s.readers.get p).noticesAt ((releaseRecords n s).backlog p) (s.ports.get p).notices } := by
  rw [releaseRecords_of_due h, evaluateBacklogs_backlog]
  exact ⟨evaluateBacklogs_reader p _, evaluateBacklogs_port p _⟩

end

/-! ### Both as commands -/

theorem finishRefiner_of_unbegun (h : s.owed.refiner = .expiry ∨ s.owed.refiner = .done) : finishRefiner s = s := by
  unfold finishRefiner
  rcases h with h | h <;> rw [h]

theorem exec_retirement {n : Index} (hn : s.newestOr = n) (h : s.owed.refiner = .expiry ∨ s.owed.refiner = .done)
    (howed : s.owed.list = .retire) :
    exec .retirement s = .next ((retireRecords n (takeUp n s)).setOwed { s.owed with list := .release }) := by
  show execRetirement s = _
  rw [execRetirement, finishRefiner_of_unbegun h, listRetire, howed, hn]

theorem exec_release {n : Index} (hn : s.newestOr = n) (h : s.owed.refiner = .expiry ∨ s.owed.refiner = .done)
    (howed : s.owed.list = .release) :
    exec .release s = .next ((releaseRecords n s).setOwed { s.owed with list := .done }) := by
  have hretired : listRetire s = s := by rw [listRetire, howed]
  show execRelease s = _
  rw [execRelease, finishRefiner_of_unbegun h, listFinish, hretired]
  dsimp only
  rw [howed, hn]

/-- What RETIREMENT makes of the list (R124, R132). -/
theorem retirement_list (hkept : s.ListKept) (n : Index) :
    (retireRecords n (takeUp n s)).list =
      { s.list with
        records := s.list.records.filter fun r => decide ((n - r.key).toNat ≠ 2147483647)
        holdback := s.settings.station.holdback
        newestTaken := some n
        nearFullArmed := s.list.nearFullArmed || decide ((s.list.records.filter fun r =>
          decide ((n - r.key).toNat ≠ 2147483647)).length < 48) } := by
  have hkeep : (fun r => !ageLimit n r) = fun r : Record => decide ((n - r.key).toNat ≠ 2147483647) :=
    funext fun r => by rw [ageLimit_eq_decide, decide_not]
  rw [retireRecords_list_eq (s := takeUp n s) hkept, PickList.thin, List.map_id, hkeep]
  rfl

end

/-- Settles O47: RETIREMENT by the losses one after another, RELEASE by the removal test on what it releases. -/
theorem theListRetiresAndReleases : Obligations.TheListRetiresAndReleases := by
  unfold Obligations.TheListRetiresAndReleases
  intro s n hn hrefiner hkept hreaders
  have hnewest := newestOr_of_newest hn
  refine ⟨fun howed => ?_, fun due removable howed hdue hremovable => ?_⟩
  · have hframe := (takeUp_frame n.index s).trans (retireRecords_frame n.index _)
    have hlist := retirement_list hkept n.index
    have hany : s.list.records.any (ageLimit n.index) = true ↔
        ∃ r ∈ s.list.records, (n.index - r.key).toNat = 2147483647 := by simp [ageLimit_eq_decide]
    have hports (hold : ∃ r ∈ s.list.records, (n.index - r.key).toNat = 2147483647) :=
      retireRecords_reader_port (s := takeUp n.index s) (n := n.index) hkept hreaders (hany.2 hold)
    have hfilter (v : Serial) : (s.list.records.any fun r => ageLimit n.index r && decide (r.serial = v)) =
        s.list.records.any fun r => decide ((n.index - r.key).toNat = 2147483647) && decide (r.serial = v) := by
      simp only [ageLimit_eq_decide]
    refine ⟨_, exec_retirement hnewest hrefiner howed, (congrArg PickList.records hlist :),
      (congrArg PickList.holdback hlist :), (congrArg PickList.newestTaken hlist :),
      (congrArg PickList.nextSerial hlist :), fun hnone => ?_, ?_, fun hold p lost hlost => ?_,
      fun r hr hage p hattached hmark => ?_, rfl, hframe.sameCore, hframe.tmu, hframe.units, hframe.refiner⟩
    · rw [retireRecords_of_not_due (s := takeUp n.index s) (Bool.eq_false_iff.2 fun hdue => ?_)]
      · rfl
      · obtain ⟨r, hr, hage⟩ := hany.1 hdue
        exact hnone r hr hage
    · show (retireRecords n.index (takeUp n.index s)).list.nearFullArmed = (s.list.nearFullArmed
        || decide ((retireRecords n.index (takeUp n.index s)).list.records.length < 48))
      rw [hlist]
    · obtain ⟨hreader, hport⟩ := hports hold p
      simp only [takeUp, hfilter] at hreader
      rw [← (Bool.eq_iff_iff.2 ((any_lost_iff n.index p s).trans hlost.symm) : _ = lost)]
      exact ⟨hreader, hport⟩
    · exact retireRecords_lost (s := takeUp n.index s) hkept hreaders hr
        ((ageLimit_eq_decide _ r).trans (decide_eq_true hage)) hattached hmark
  · have hframe := releaseRecords_frame n.index s
    obtain rfl : due = releaseDue s.list.holdback n.index :=
      funext fun r => Bool.eq_iff_iff.2 ((hdue r).trans (releaseDue_iff _ _ r).symm)
    exact ⟨_, exec_release hnewest hrefiner howed, releaseRecords_list_eq hkept hdue hremovable,
      fun hnone => by rw [releaseRecords_of_not_due hnone], releaseRecords_reader_port, rfl,
      hframe.sameCore, hframe.tmu, hframe.units, hframe.refiner⟩

end Sys2Proof.Machine
end

section
/-! List order and the requests in flight (R96, R121, R125, R126, R132): the condition on the list in terms of its
operations, and what each operation asks and keeps. -/

namespace Sys2Proof.Machine

/-! ### The condition -/

/-- A request in flight began its window no earlier than any released record's key: what is still to be handed over for
it stands after every released record (R126). -/
def State.Behind (s : State) (r : Request) : Prop :=
  ∀ x ∈ s.list.records, x.released = true → s.age r.ws ≤ s.age x.key

/-- Every request of a queue and of lanes is so. -/
def State.BehindAll (s : State) (rf : Refiner) : Prop := rf.All s.Behind (Lane.Within s.Behind fun _ => True)

/-- `State.InListOrder` but for its last clause, in the terms of the operations. -/
structure State.Ordered (s : State) : Prop where
  sorted : s.list.records.Pairwise Record.Before
  ages : ∀ x ∈ s.list.records, s.age x.key ≤ 2147483647
  young : s.owed.list ≠ .retire → ∀ x ∈ s.list.records, s.age x.key < 2147483647
  old : ∀ x ∈ s.list.records, x.released = true → 640 ≤ s.age x.key
  behind : s.BehindAll s.refiner
  holdback : s.owed.list = .release → s.list.holdback = s.settings.station.holdback

section
variable {s t : State} {r : Request}

theorem State.BehindAll.of_inFlight (h : ∀ r, s.InFlight r → s.Behind r) : s.BehindAll s.refiner := by
  refine ⟨fun r hr => h r (.inl hr), fun l => ?_⟩
  have hlane (r : Request) (hr : (s.refiner.lanes.get l).request = some r) : s.Behind r := h r (.inr ⟨l, hr⟩)
  cases hl : s.refiner.lanes.get l with
  | free => trivial
  | waiting r => exact hlane r (by rw [hl]; rfl)
  | scanning r w => exact ⟨hlane r (by rw [hl]; rfl), trivial⟩
  | resolving r w k => exact ⟨hlane r (by rw [hl]; rfl), trivial⟩

theorem State.BehindAll.inFlight (h : s.BehindAll s.refiner) (hr : s.InFlight r) : s.Behind r := by
  rcases hr with hr | ⟨l, hl⟩
  · exact h.1 r hr
  · exact (h.2 l).request hl

theorem State.inListOrder_iff (s : State) :
    s.InListOrder ↔ s.Ordered ∧ (s.ring.newest = none → s.list.records = []) := by
  constructor
  · rintro ⟨hsorted, hages, hreleased, hholdback, hblank⟩
    exact ⟨⟨hsorted, fun x hx => (hages x hx).1, fun howed x hx => (hages x hx).2 howed,
      fun x hx hr => (hreleased x hx hr).1, .of_inFlight fun r hr x hx hxr => (hreleased x hx hxr).2 r hr,
      hholdback⟩, hblank⟩
  · rintro ⟨h, hblank⟩
    exact ⟨h.sorted, fun x hx => ⟨h.ages x hx, fun howed => h.young howed x hx⟩,
      fun x hx hxr => ⟨h.old x hx hxr, fun r hr => h.behind.inFlight hr x hx hxr⟩, h.holdback, hblank⟩

/-! ### Records that stay -/

/-- What list order reads of a record. -/
def Record.standing (x : Record) : Index × Bool := (x.key, x.released)

/-- Some records stay as they stood, in their order. -/
def Stay (rs rs' : List Record) : Prop := (rs'.map Record.standing).Sublist (rs.map Record.standing)

theorem Stay.refl (rs : List Record) : Stay rs rs := List.Sublist.refl _

theorem Stay.of_eq {rs rs' : List Record} (h : rs' = rs) : Stay rs rs' := h ▸ .refl rs

theorem PickList.thin_stay (l : PickList) (keep : Record → Bool) {g : Record → Record}
    (hg : ∀ x, (g x).standing = x.standing) : Stay l.records (l.thin keep g).records := by
  unfold Stay PickList.thin
  rw [List.map_map, show Record.standing ∘ g = Record.standing from funext hg]
  exact List.filter_sublist.map _

theorem Stay.mem {rs rs' : List Record} (h : Stay rs rs') {x : Record} (hx : x ∈ rs') :
    ∃ y ∈ rs, y.key = x.key ∧ y.released = x.released := by
  obtain ⟨y, hy, heq⟩ := List.mem_map.1 (h.subset (List.mem_map_of_mem hx))
  exact ⟨y, hy, congrArg Prod.fst heq, congrArg Prod.snd heq⟩

theorem Stay.sorted {rs rs' : List Record} (h : Stay rs rs') (hsorted : rs.Pairwise Record.Before) :
    rs'.Pairwise Record.Before := by
  have hiff (l : List Record) : l.Pairwise Record.Before ↔ (l.map Record.standing).Pairwise fun x y =>
      (x.1 = y.1 ∨ earlier x.1 y.1 = true) ∧ (y.2 = true → x.2 = true) := by
    rw [List.pairwise_map]
    rfl
  exact (hiff _).2 (((hiff _).1 hsorted).sublist h)

/-- Every released record of the later list stood released in the earlier. -/
def ReleasedStay (rs rs' : List Record) : Prop :=
  ∀ x ∈ rs', x.released = true → ∃ y ∈ rs, y.released = true ∧ y.key = x.key

theorem Stay.released {rs rs' : List Record} (h : Stay rs rs') : ReleasedStay rs rs' := fun x hx hxr => by
  obtain ⟨y, hy, hkey, hyr⟩ := h.mem hx
  exact ⟨y, hy, hyr.trans hxr, hkey⟩

theorem State.Behind.of_released (h : s.Behind r) (hnewest : t.ring.newest = s.ring.newest)
    (hrecords : ReleasedStay s.list.records t.list.records) : t.Behind r := by
  intro x hx hxr
  obtain ⟨y, hy, hyr, hkey⟩ := hrecords x hx hxr
  rw [State.age_of_newest hnewest, State.age_of_newest hnewest, ← hkey]
  exact h y hy hyr

theorem State.BehindAll.of_released {rf : Refiner} (h : s.BehindAll rf) (hnewest : t.ring.newest = s.ring.newest)
    (hrecords : ReleasedStay s.list.records t.list.records) : t.BehindAll rf :=
  Refiner.All.imp h (fun _ hr => hr.of_released hnewest hrecords) fun _ hx =>
    Lane.Within.imp hx (fun _ hr => hr.of_released hnewest hrecords) fun _ _ _ => trivial

/-- Records that stay, with requests that were behind them. -/
theorem State.Ordered.of_stay (h : s.Ordered) (hnewest : t.ring.newest = s.ring.newest)
    (hrecords : Stay s.list.records t.list.records)
    (hyoung : t.owed.list ≠ .retire → ∀ x ∈ t.list.records, t.age x.key < 2147483647)
    (hholdback : t.owed.list = .release → t.list.holdback = t.settings.station.holdback)
    (hrefiner : s.BehindAll t.refiner) : t.Ordered where
  sorted := hrecords.sorted h.sorted
  ages x hx := by
    obtain ⟨y, hy, hkey, -⟩ := hrecords.mem hx
    rw [State.age_of_newest hnewest, ← hkey]
    exact h.ages y hy
  young := hyoung
  old x hx hxr := by
    obtain ⟨y, hy, hkey, hyr⟩ := hrecords.mem hx
    rw [State.age_of_newest hnewest, ← hkey]
    exact h.old y hy (hyr.trans hxr)
  behind := State.BehindAll.of_released hrefiner hnewest hrecords.released
  holdback := hholdback

/-- What stays beside what the list owes and took up is in order still. -/
theorem State.Ordered.of_stay_owed (h : s.Ordered) (hnewest : t.ring.newest = s.ring.newest)
    (hrecords : Stay s.list.records t.list.records) (howed : t.owed.list = s.owed.list)
    (htaken : t.list.holdback = s.list.holdback)
    (hholdback : s.owed.list = .release → t.settings.station.holdback = s.settings.station.holdback)
    (hrefiner : s.BehindAll t.refiner) : t.Ordered := by
  refine h.of_stay hnewest hrecords (fun ht x hx => ?_) (fun ht => ?_) hrefiner
  · obtain ⟨y, hy, hkey, -⟩ := hrecords.mem hx
    rw [State.age_of_newest hnewest, ← hkey]
    exact h.young (howed ▸ ht) y hy
  · rw [howed] at ht
    rw [htaken, h.holdback ht, hholdback ht]

/-- The list stays, with what it took up and what it owes. -/
theorem State.Ordered.of_list (h : s.Ordered) (hnewest : t.ring.newest = s.ring.newest) (hlist : t.list = s.list)
    (howed : t.owed.list = s.owed.list)
    (hholdback : s.owed.list = .release → t.settings.station.holdback = s.settings.station.holdback)
    (hrefiner : s.BehindAll t.refiner) : t.Ordered :=
  h.of_stay_owed hnewest (.of_eq (by rw [hlist])) howed (by rw [hlist]) hholdback hrefiner

/-- The refiner alone differs. -/
theorem State.Ordered.of_refiner (h : s.Ordered) (hframe : OnlyRefined s t) (hlist : t.list = s.list)
    (hrefiner : s.BehindAll t.refiner) : t.Ordered :=
  h.of_list (by rw [hframe.ring]) hlist (by rw [hframe.owed]) (fun _ => by rw [hframe.settings]) hrefiner

/-! ### Insertion (R121, R122, R126) -/

/-- A key at which a record may be handed over: no older than any released record's. -/
def State.Admits (s : State) (key : Index) : Prop :=
  s.age key < 2147483647 ∧ ∀ x ∈ s.list.records, x.released = true → s.age key ≤ s.age x.key

theorem State.Admits.of_released {key : Index} (h : s.Admits key) (hnewest : t.ring.newest = s.ring.newest)
    (hrecords : ReleasedStay s.list.records t.list.records) : t.Admits key := by
  refine ⟨(State.age_of_newest hnewest key).trans_lt h.1, fun x hx hxr => ?_⟩
  obtain ⟨y, hy, hyr, hkey⟩ := hrecords x hx hxr
  rw [State.age_of_newest hnewest, State.age_of_newest hnewest, ← hkey]
  exact h.2 y hy hyr

theorem State.age_newestOr (s : State) : s.age s.newestOr = 0 := distance_self _

theorem State.admits_newestOr (s : State) : s.Admits s.newestOr := by
  refine ⟨?_, fun x _ _ => ?_⟩
  · rw [s.age_newestOr]
    decide
  · rw [s.age_newestOr]
    exact Nat.zero_le _

/-- A key of the last 640 slots is admitted: every released record is older (R162). -/
theorem State.Ordered.admits_of_recent (h : s.Ordered) {key : Index} (hkey : s.age key ≤ 640) : s.Admits key :=
  ⟨hkey.trans_lt (by decide), fun x hx hxr => hkey.trans (h.old x hx hxr)⟩

/-- A record handed over is in the list, and beside it records that were there. -/
theorem insertRecord_placed (key : Index) (d : Detail) (s : State) :
    ∃ l : PickList, l.records.Sublist s.list.records
      ∧ (insertRecord key d s).list.records = (l.inserted key d).records
      ∧ (insertRecord key d s).list.holdback = s.list.holdback := by
  rcases Nat.lt_or_ge s.list.records.length 64 with hroom | hfull
  · exact ⟨s.list, List.Sublist.refl _, by rw [insertRecord_list_of_not_full hroom],
      by rw [insertRecord_list_of_not_full hroom]; rfl⟩
  · exact ⟨{ s.list with records := s.list.records.tail }, List.tail_sublist _,
      by rw [insertRecord_list_of_full hfull], by rw [insertRecord_list_of_full hfull]; rfl⟩

theorem PickList.mem_inserted {l : PickList} {key : Index} {d : Detail} {x : Record}
    (hx : x ∈ (l.inserted key d).records) : x = l.handed key d ∨ x ∈ l.records :=
  List.mem_cons.1 ((placeRecord_perm (l.handed key d) l.records).subset hx)

/-- A record no older than the released ones keeps a list in order. -/
theorem PickList.inserted_sorted {l : PickList} {key n : Index} (d : Detail)
    (hsorted : l.records.Pairwise Record.Before) (hages : ∀ x ∈ l.records, distance x.key n < 2147483648)
    (hkey : distance key n < 2147483648)
    (hreleased : ∀ x ∈ l.records, x.released = true → distance key n ≤ distance x.key n) :
    (l.inserted key d).records.Pairwise Record.Before := by
  obtain ⟨before, after, hrecords, hinserted, hbefore, hhead⟩ := l.inserted_split key d
  rw [hrecords] at hsorted hages hreleased
  have hlater := later_after_place hkey hages (hsorted.imp fun h => h.1) hhead
  rw [hinserted]
  refine pairwise_insert hsorted (fun x hx => ⟨?_, nofun⟩) fun x hx => ⟨.inr (hlater x hx), fun hxr => ?_⟩
  · have hx' := hages x (List.mem_append_left _ hx)
    exact (keyOrder_iff_age hx' hkey).2 (age_le_of_not_earlier hx' hkey (hbefore x hx))
  · have hx' := List.mem_append_right before hx
    exact absurd ((earlier_iff_age hkey (hages x hx')).1 (hlater x hx)) (Nat.not_lt.2 (hreleased x hx' hxr))

theorem insertRecord_released (key : Index) (d : Detail) (s : State) :
    ReleasedStay s.list.records (insertRecord key d s).list.records := by
  obtain ⟨l, hsub, hrecords, -⟩ := insertRecord_placed key d s
  intro x hx hxr
  rw [hrecords] at hx
  rcases PickList.mem_inserted hx with rfl | hx
  · cases hxr
  · exact ⟨x, hsub.subset hx, hxr, rfl⟩

theorem State.Ordered.insert (h : s.Ordered) {key : Index} (hkey : s.Admits key) (d : Detail) :
    (insertRecord key d s).Ordered := by
  have hframe := insertRecord_frame key d s
  have hnewest : (insertRecord key d s).ring.newest = s.ring.newest := by rw [hframe.ring]
  have hage := State.age_of_newest hnewest
  obtain ⟨l, hsub, hrecords, hholdback⟩ := insertRecord_placed key d s
  have hmem {x : Record} (hx : x ∈ (insertRecord key d s).list.records) : x.key = key ∨ x ∈ s.list.records := by
    rw [hrecords] at hx
    rcases PickList.mem_inserted hx with rfl | hx
    · exact .inl rfl
    · exact .inr (hsub.subset hx)
  refine ⟨?_, fun x hx => ?_, fun howed x hx => ?_, fun x hx hxr => ?_, ?_, fun howed => ?_⟩
  · rw [hrecords]
    exact PickList.inserted_sorted d (h.sorted.sublist hsub)
      (fun x hx => Nat.lt_succ_of_le (h.ages x (hsub.subset hx))) (hkey.1.trans (by decide))
      fun x hx => hkey.2 x (hsub.subset hx)
  · rw [hage]
    rcases hmem hx with heq | hx
    · rw [heq]
      exact hkey.1.le
    · exact h.ages x hx
  · rw [hage]
    rcases hmem hx with heq | hx
    · rw [heq]
      exact hkey.1
    · exact h.young (hframe.owed ▸ howed) x hx
  · obtain ⟨y, hy, hyr, hk⟩ := insertRecord_released key d s x hx hxr
    rw [hage, ← hk]
    exact h.old y hy hyr
  · rw [hframe.refiner]
    exact State.BehindAll.of_released h.behind hnewest (insertRecord_released key d s)
  · rw [hholdback, hframe.settings]
    exact h.holdback (hframe.owed ▸ howed)

end

end Sys2Proof.Machine
end

section
/-! List order through each operation on the records and the requests (R96, R121, R125, R126, R132). -/

namespace Sys2Proof.Machine

section
variable {s t : State} {b : Band}

/-! ### The refiner's operations -/

theorem State.launchKeeps_behindAll (s : State) (n : Index) : LaunchKeeps n s.BehindAll :=
  launchKeeps_all fun _ hr => within_launchedLane hr fun _ => trivial

theorem State.Ordered.examination (h : s.Ordered) : (launchExamination s).Ordered :=
  h.of_refiner (launchExamination_frame s) (launchExamination_list s).1
    ((s.launchKeeps_behindAll _).keeps_examination h.behind)

theorem State.Ordered.scanStart (h : s.Ordered) (n : Index) : (scanStartStep n s).Ordered :=
  h.of_refiner (scanStartStep_frame n s) rfl
    (Refiner.All.scanStartStep h.behind fun _ hx => hx.startScan fun _ _ _ => trivial)

theorem State.Ordered.freed (h : s.Ordered) (l : LaneId) : (s.setLane l .free).Ordered :=
  h.of_list rfl rfl rfl (fun _ => rfl) (Refiner.All.set h.behind l trivial)

theorem State.Ordered.read (h : s.Ordered) (l : LaneId) : (grantLane l s).Ordered :=
  h.of_list rfl rfl rfl (fun _ => rfl) (Refiner.All.grantLane h.behind fun _ hx => hx.afterRead _)

theorem Request.ws_truncate (r : Request) (b : Band) (t2 : Index) : (r.truncate b t2).ws = r.ws := by
  unfold Request.truncate
  split <;> rfl

theorem State.Ordered.truncation (h : s.Ordered) (b : Band) (t2 : Index) : (truncateBand b t2 s).Ordered := by
  refine h.of_refiner (truncateBand_frame b t2 s) rfl (Refiner.All.truncateBand h.behind ?_ ?_)
  · exact fun r hr x hx hxr => (congrArg s.age (r.ws_truncate b t2)).trans_le (hr x hx hxr)
  · exact fun x hx => hx.truncate (fun r hr x hx hxr => (congrArg s.age (r.ws_truncate b t2)).trans_le (hr x hx hxr))
      (fun _ hr => hr) (fun _ he => he) fun _ _ _ => trivial

/-! ### Records of requests (R80, R90, R96, R112) -/

/-- A request of the last 640 slots is queued, or handed over as shed (R89, R90). -/
theorem State.Ordered.offer (h : s.Ordered) {r : Request} (hws : s.age r.ws ≤ 640) (htrigger : s.age r.trigger ≤ 640) :
    (offerRequest r s).Ordered := by
  unfold offerRequest
  split
  · have hqueued : (s.setQueue (enqueue r s.refiner.queue)).Ordered :=
      h.of_list rfl rfl rfl (fun _ => rfl)
        (Refiner.All.enqueue h.behind fun x hx hxr => hws.trans (h.old x hx hxr))
    exact hqueued.examination
  · exact h.insert (h.admits_of_recent htrigger) _

/-- The trigger of a request in flight is later than every released key (R78, R126). -/
theorem State.Allows.admits_trigger {r : Request} (h : s.Allows r) (hbehind : s.Behind r)
    (hholdback : s.settings.station.holdback ≤ 4096) : s.Admits r.trigger := by
  obtain ⟨-, -, htrigger, hle, -, -⟩ := h.kept
  have hsum : distance r.ws r.trigger + s.age r.trigger = s.age r.ws := distance_add htrigger.le
  exact ⟨by omega, fun x hx hxr => (show s.age r.trigger ≤ s.age r.ws by omega).trans (hbehind x hx hxr)⟩

/-- A refined onset lies in its window, so its key is later than every released one (R110, R112). -/
theorem State.Allows.admits_refinedKey {r : Request} {w : List WindowSlot} (h : s.Allows r) (hbehind : s.Behind r)
    (hholdback : s.settings.station.holdback ≤ 4096) (hend : s.EndWritten r) (hw : w.length = r.length) :
    s.Admits (refinedKey r w) := by
  obtain ⟨-, -, -, hle, -, hmin, -⟩ := h.kept
  obtain ⟨-, hbest, -⟩ := mem_candidates.1 (bestCandidate_mem (hw ▸ hmin))
  have hin : bestCandidate w ≤ s.age r.ws := by
    rw [State.EndWritten] at hend
    rw [hw, Request.length] at hbest
    omega
  have hage : s.age (refinedKey r w) ≤ s.age r.ws := by
    rw [refinedKey]
    generalize bestCandidate w = k at *
    simp only [State.age, distance, addSlots] at *
    bv_omega
  exact ⟨by omega, fun x hx hxr => hage.trans (hbehind x hx hxr)⟩

/-- What the order of the records rests on: the settings, the requests and the lanes. -/
structure State.Sound (s : State) : Prop where
  bounded : s.Bounded
  flight : s.FlightKept
  refiner : s.RefinerKept

theorem State.Sound.holdback_le (h : s.Sound) : s.settings.station.holdback ≤ 4096 := h.bounded.station.1.2

theorem State.Ordered.completion (h : s.Ordered) (hs : s.Sound) (l : LaneId) : (completeLane l s).Ordered := by
  unfold completeLane
  split
  · rename_i r w k hl
    have hlane := hs.flight.flight.2 l
    have hfull := hs.refiner.1 l
    rw [hl] at hlane hfull
    have hbehind : s.Behind r := h.behind.inFlight (.inr ⟨l, by rw [hl]; rfl⟩)
    have hkey := hlane.1.admits_refinedKey hbehind hs.holdback_le hlane.2 hfull.1
    exact ((h.freed l).insert hkey _).examination
  all_goals exact h

theorem State.Sound.completion (h : s.Sound) (l : LaneId) : (completeLane l s).Sound :=
  ⟨h.bounded.of_refined (completeLane_frame l s), h.flight.completion h.bounded l,
    refinerKept_invariant.completion l trivial h.refiner⟩

theorem State.Ordered.overdueLane (h : s.Ordered ∧ s.Sound) (l : LaneId) :
    (completeOverdueLane l s).Ordered ∧ (completeOverdueLane l s).Sound := by
  unfold completeOverdueLane
  split
  · split
    · exact ⟨h.1.completion h.2 l, h.2.completion l⟩
    · exact h
  all_goals exact h

theorem State.Ordered.overdue (h : s.Ordered) (hs : s.Sound) :
    (completeOverdue s).Ordered ∧ (completeOverdue s).Sound :=
  overdueLane (overdueLane (overdueLane (overdueLane ⟨h, hs⟩ .l0) .l1) .l2) .l3

theorem handExpired_frame (rs : List Request) (s : State) : OnlyRecords s (handExpired rs s) :=
  OnlyRecords.foldl _ (fun t r => handCoarse_frame false r t) rs s

theorem ReleasedStay.trans {xs ys zs : List Record} (h : ReleasedStay xs ys) (g : ReleasedStay ys zs) :
    ReleasedStay xs zs := fun x hx hxr => by
  obtain ⟨y, hy, hyr, hkey⟩ := g x hx hxr
  obtain ⟨z, hz, hzr, hkey'⟩ := h y hy hyr
  exact ⟨z, hz, hzr, hkey'.trans hkey⟩

theorem State.Ordered.handExpired {rs : List Request} (h : s.Ordered) (hrs : ∀ r ∈ rs, s.Admits r.trigger) :
    (handExpired rs s).Ordered ∧ ReleasedStay s.list.records (handExpired rs s).list.records := by
  induction rs generalizing s with
  | nil => exact ⟨h, (Stay.refl _).released⟩
  | cons r rs ih =>
    obtain ⟨hhead, hrest⟩ := List.forall_mem_cons.1 hrs
    have hone := h.insert hhead (.onset (coarsePart r false))
    have hreleased := insertRecord_released r.trigger (.onset (coarsePart r false)) s
    have hnewest := congrArg Ring.newest (insertRecord_frame r.trigger (.onset (coarsePart r false)) s).ring
    obtain ⟨hordered, hstay⟩ := ih hone fun x hx => (hrest x hx).of_released hnewest hreleased
    exact ⟨hordered, hreleased.trans hstay⟩

theorem Refiner.inFlight_of_mem_expired {n : Index} {r : Request} (h : r ∈ s.refiner.expired n) : s.InFlight r := by
  simp only [Refiner.expired, List.mem_append, Lane.mem_expired, List.mem_filter, or_assoc] at h
  rcases h with ⟨hl, -⟩ | ⟨hl, -⟩ | ⟨hl, -⟩ | ⟨hl, -⟩ | ⟨hq, -⟩
  · exact .inr ⟨.l0, hl⟩
  · exact .inr ⟨.l1, hl⟩
  · exact .inr ⟨.l2, hl⟩
  · exact .inr ⟨.l3, hl⟩
  · exact .inl hq

theorem State.Ordered.expiry (h : s.Ordered) (hs : s.Sound) (n : Index) (x : RefinerStep) :
    ((expiryStep n s).setOwed { s.owed with refiner := x }).Ordered := by
  obtain ⟨rf, hexpired⟩ := expiryStep_expires n s
  have hadmits (r : Request) (hr : r ∈ s.refiner.expired n) : s.Admits r.trigger :=
    (hs.flight.allows (Refiner.inFlight_of_mem_expired hr)).admits_trigger
      (h.behind.inFlight (Refiner.inFlight_of_mem_expired hr)) hs.holdback_le
  obtain ⟨hordered, hreleased⟩ := h.handExpired hadmits
  have hframe := handExpired_frame (s.refiner.expired n) s
  have hbehind : s.BehindAll (expiryStep n s).refiner :=
    Refiner.All.expiryStep h.behind (fun _ hr _ => hr) (fun _ hx _ => hx) trivial
  refine hordered.of_list (by rw [hexpired]; rfl) (by rw [hexpired]; rfl) (by rw [hframe.owed]; rfl) (fun _ => ?_)
    (hbehind.of_released (by rw [hframe.ring]) hreleased)
  rw [hexpired]
  rfl

/-! ### A unit's handling (R66, R73, R77, R78) -/

theorem State.Ordered.setUnit (h : s.Ordered) (b : Band) (u : TriggerUnit) : (s.setUnit b u).Ordered :=
  h.of_list rfl rfl rfl (fun _ => rfl) h.behind

/-- The window of a declared request began with the confirmation, less at most 256 slots (R78). -/
theorem age_makeRequest_ws {u : TriggerUnit} {start : Index} (stack ratio h : Nat) (x : TimingState)
    (hu : u.profile.Legal) (hage : s.age start = u.profile.confirmLen) :
    s.age (makeRequest b u stack start ratio h x).ws ≤ 640 ∧ s.age start ≤ 640 := by
  obtain ⟨-, -, -, -, -, -, -, hlen, -, -, -, -, hpre, -⟩ := hu
  refine ⟨?_, by omega⟩
  generalize u.profile.confirmLen = len at *
  simp only [makeRequest, State.age, distance, subSlots] at *
  generalize u.profile.pre = pre at *
  bv_omega

theorem State.Ordered.primary (h : s.Ordered) (hs : s.Sound) (hunit : (s.units.get b).Kept)
    (hstate : (s.units.get b).state = .pending)
    (hcount : (s.units.get b).confirmCount = (s.units.get b).profile.confirmLen) : (unitPrimary b s).Ordered := by
  obtain ⟨hfrozen, -⟩ := hunit
  obtain ⟨-, htOn⟩ := hfrozen (by rw [hstate]; rfl)
  obtain ⟨start, hstart⟩ := Option.isSome_iff_exists.1 htOn
  have hage := ((hs.flight.runs b).primary start hstate hstart).1.trans hcount
  unfold unitPrimary
  dsimp only
  split
  · rw [hstart]
    obtain ⟨hws, htrigger⟩ := age_makeRequest_ws (b := b) (u := (s.units.get b).declare) 0
      (ratioOf (s.units.get b).sta (s.units.get b).ltaInUse) s.settings.station.holdback s.tmu.timing
      (hs.bounded.units b).profile hage
    exact (h.setUnit b _).offer hws htrigger
  · exact h.setUnit b _

theorem State.Ordered.stacked (h : s.Ordered) (hs : s.Sound) (hstate : (s.units.get b).state = .declared)
    (hsome : (s.units.get b).tOn2.isSome)
    (hcount : (s.units.get b).stackCount = (s.units.get b).profile.confirmLen) : (unitStacked b s).Ordered := by
  obtain ⟨t2, ht2⟩ := Option.isSome_iff_exists.1 hsome
  have hage := ((hs.flight.runs b).stacked t2 hstate ht2).1.trans hcount
  unfold unitStacked
  dsimp only
  rw [ht2, Option.getD_some]
  split
  · obtain ⟨hws, htrigger⟩ := age_makeRequest_ws (b := b) (u := (s.units.get b).declareStacked)
      (s.units.get b).declareStacked.stack
      (ratioOf (s.units.get b).sta ((s.units.get b).minInUse (s.units.get b).confirmMin))
      s.settings.station.holdback s.tmu.timing (hs.bounded.units b).profile hage
    exact ((h.setUnit b _).truncation b t2).offer hws htrigger
  · exact h.setUnit b _

/-- A unit hands over a CLOSE record at the newest slot, or a request of its last confirmation (R77, R78). -/
theorem State.Ordered.unitAct (h : s.Ordered) (hs : s.Sound) (hunit : (s.units.get b).Kept) :
    (unitAct (s.unitDue b) b s).Ordered := by
  have hfinds := s.unitDue_finds b
  have hclose (u : TriggerUnit) (c : CloseCause) (v : TriggerUnit) : (handClose b u c (s.setUnit b v)).Ordered :=
    (h.setUnit b v).insert (s.setUnit b v).admits_newestOr _
  cases hd : s.unitDue b with
  | nothing => exact h
  | warm | calIdle | rewarm | trigger | calPending | stackBegin | dead => exact h.setUnit b _
  | calDeclared | fell | maxDur => exact hclose _ _ _
  | gapRun =>
    simp only [Machine.unitAct, unitGapRun]
    split
    · exact h
    · exact hclose _ _ _
    all_goals exact h.setUnit b _
  | primary =>
    rw [hd] at hfinds
    exact h.primary hs hunit hfinds (due_counts.1 hd)
  | stacked =>
    rw [hd] at hfinds
    exact h.stacked hs hfinds.1 hfinds.2 (due_counts.2 hd)

theorem State.Ordered.unitFinish (h : s.Ordered) (hs : s.Sound) (hunit : (s.units.get b).Kept) :
    (unitFinish b s).Ordered := by
  unfold Machine.unitFinish
  split
  · have hacted := h.unitAct hs hunit
    exact hacted.of_list rfl rfl rfl (fun _ => rfl) hacted.behind
  · exact h

end

end Sys2Proof.Machine
end

section
/-! List order through every step (R121, R125, R126, R132): the slot write, retirement and release, and each effect. -/

namespace Sys2Proof.Machine

section
variable {s t : State}

/-! ### Retirement and release (R125, R132) -/

theorem mem_retireRecords {n : Index} {x : Record} (hx : x ∈ (retireRecords n s).list.records) :
    x ∈ s.list.records ∧ ageLimit n x = false := by
  cases hold : s.list.records.any (ageLimit n) with
  | false =>
    rw [retireRecords_of_not_due hold] at hx
    exact ⟨hx, by simpa using List.any_eq_false.1 hold x hx⟩
  | true =>
    rw [retireRecords_of_due hold] at hx
    obtain ⟨y, hy, rfl⟩ := List.mem_map.1 (show x ∈ (s.list.records.filter fun r => !ageLimit n r).map id from hx)
    obtain ⟨hmem, hyoung⟩ := List.mem_filter.1 hy
    exact ⟨hmem, by simpa using hyoung⟩

/-- A retirement takes records and changes nothing else of the list that its order rests on. -/
theorem retireRecords_stay (n : Index) (s : State) :
    Stay s.list.records (retireRecords n s).list.records
      ∧ (retireRecords n s).list.holdback = s.list.holdback := by
  rcases retireRecords_list n s with hsame | hthin
  · exact ⟨.of_eq (by rw [hsame]), by rw [hsame]⟩
  · exact ⟨hthin ▸ s.list.thin_stay _ fun _ => rfl, by rw [hthin]; rfl⟩

/-- With the records at the age limit retired, every record is younger, and the holdback in force is taken up. -/
theorem State.Ordered.retirement (h : s.Ordered) (o : Owed) :
    ((retireRecords s.newestOr (takeUp s.newestOr s)).setOwed o).Ordered := by
  have hframe := (takeUp_frame s.newestOr s).trans (retireRecords_frame s.newestOr _)
  have hnewest := congrArg Ring.newest hframe.ring
  obtain ⟨hstay, hholdback⟩ := retireRecords_stay s.newestOr (takeUp s.newestOr s)
  refine h.of_stay hnewest hstay (fun _ x hx => ?_) (fun _ => ?_) ?_
  · obtain ⟨hmem, hyoung⟩ := mem_retireRecords hx
    have hle := h.ages x hmem
    have hne : s.age x.key ≠ 2147483647 := by simpa [ageLimit, State.age] using hyoung
    exact (State.age_of_newest hnewest x.key).trans_lt (Nat.lt_of_le_of_ne hle hne)
  · show (retireRecords _ _).list.holdback = (retireRecords _ _).settings.station.holdback
    rw [hholdback, hframe.settings]
    rfl
  · show s.BehindAll (retireRecords _ _).refiner
    rw [hframe.refiner]
    exact h.behind

/-- A held record is due exactly when its holdback has passed (R1, R125). -/
theorem releaseDue_iff_age {h : Nat} {n : Index} {x : Record} (hh : h ≤ 4096)
    (hx : distance x.key n ≤ 2147483647) : releaseDue h n x = true ↔ x.released = false ∧ h ≤ distance x.key n := by
  rw [releaseDue_iff]
  refine and_congr_right fun _ => ?_
  simp only [earlier, distance, Bool.and_eq_true, decide_eq_true_eq] at *
  bv_omega

theorem Record.releaseAt_released {h : Nat} {n : Index} {x : Record} (hh : h ≤ 4096)
    (hx : distance x.key n ≤ 2147483647) :
    (x.releaseAt h n).released = true ↔ x.released = true ∨ h ≤ distance x.key n := by
  unfold Record.releaseAt
  split
  · rename_i hdue
    exact iff_of_true rfl (.inr ((releaseDue_iff_age hh hx).1 hdue).2)
  · rename_i hdue
    refine ⟨.inl, fun hor => hor.elim id fun hle => ?_⟩
    exact Bool.not_eq_false _ ▸ fun hheld => hdue ((releaseDue_iff_age hh hx).2 ⟨hheld, hle⟩)

/-- The records whose holdback has passed stand before the others, so a release keeps the order (R126). -/
theorem releaseAt_sorted {rs : List Record} {h : Nat} {n : Index} (hh : h ≤ 4096) (hsorted : rs.Pairwise Record.Before)
    (hages : ∀ x ∈ rs, distance x.key n ≤ 2147483647) : (rs.map (Record.releaseAt h n)).Pairwise Record.Before := by
  rw [List.pairwise_map]
  refine hsorted.imp_of_mem fun {x y} hx hy hbefore => ?_
  obtain ⟨hkey, hreleased⟩ := hbefore
  have hage := (keyOrder_iff_age (Nat.lt_succ_of_le (hages x hx)) (Nat.lt_succ_of_le (hages y hy))).1 hkey
  refine ⟨by rwa [Record.releaseAt_key, Record.releaseAt_key], fun hy' => ?_⟩
  rw [Record.releaseAt_released hh (hages y hy)] at hy'
  rw [Record.releaseAt_released hh (hages x hx)]
  exact hy'.imp hreleased fun hle => hle.trans hage

theorem mem_thin {l : PickList} {keep : Record → Bool} {g : Record → Record} {x : Record}
    (hx : x ∈ (l.thin keep g).records) : ∃ y ∈ l.records, g y = x := by
  obtain ⟨y, hy, heq⟩ := List.mem_map.1 hx
  exact ⟨y, (List.mem_filter.1 hy).1, heq⟩

/-- What a release adds is as old as the holdback, and no window in flight began before (R93, R125). -/
theorem State.Ordered.release (h : s.Ordered) (hs : s.Sound) (howed : s.owed.list = .release) (o : Owed)
    (ho : o.list = .done) : ((releaseRecords s.newestOr s).setOwed o).Ordered := by
  have hframe := releaseRecords_frame s.newestOr s
  have hnewest := congrArg Ring.newest hframe.ring
  have hage (i : Index) : ((releaseRecords s.newestOr s).setOwed o).age i = s.age i := State.age_of_newest hnewest i
  have hnot : ((releaseRecords s.newestOr s).setOwed o).owed.list ≠ .release := by
    rw [State.setOwed_owed, ho]
    decide
  have hbehind : s.BehindAll ((releaseRecords s.newestOr s).setOwed o).refiner := by
    rw [State.setOwed_refiner, hframe.refiner]
    exact h.behind
  have hyoung := h.young (by rw [howed]; decide)
  obtain ⟨⟨hmin, hmax⟩, -⟩ := hs.bounded.station
  have htaken := h.holdback howed
  rcases releaseRecords_list s.newestOr s with hsame | ⟨keep, hthin⟩
  · refine h.of_stay hnewest (.of_eq (by rw [State.setOwed_list, hsame])) (fun _ x hx => ?_)
      (fun hr => absurd hr hnot) hbehind
    rw [State.setOwed_list, hsame] at hx
    exact (hage x.key).trans_lt (hyoung x hx)
  · have hmem {x : Record} (hx : x ∈ ((releaseRecords s.newestOr s).setOwed o).list.records) :
        ∃ y ∈ s.list.records, y.key = x.key ∧ (x.released = true →
          y.released = true ∨ s.settings.station.holdback ≤ s.age y.key) := by
      rw [State.setOwed_list, hthin] at hx
      obtain ⟨y, hy, rfl⟩ := mem_thin hx
      refine ⟨y, hy, (Record.releaseAt_key _ _ y).symm, fun hr => ?_⟩
      exact htaken ▸ (Record.releaseAt_released (htaken ▸ hmax) (h.ages y hy)).1 hr
    have hws (r : Request) (hr : s.InFlight r) : s.age r.ws ≤ s.settings.station.holdback := by
      obtain ⟨-, -, -, hle, -⟩ := (hs.flight.allows hr).kept
      exact hle
    refine ⟨?_, fun x hx => ?_, fun _ x hx => ?_, fun x hx hxr => ?_, ?_, fun hr => absurd hr hnot⟩
    · rw [State.setOwed_list, hthin]
      exact releaseAt_sorted (htaken ▸ hmax) (h.sorted.sublist List.filter_sublist)
        fun x hx => h.ages x (List.mem_filter.1 hx).1
    · obtain ⟨y, hy, hkey, -⟩ := hmem hx
      rw [hage, ← hkey]
      exact h.ages y hy
    · obtain ⟨y, hy, hkey, -⟩ := hmem hx
      rw [hage, ← hkey]
      exact hyoung y hy
    · obtain ⟨y, hy, hkey, hreleased⟩ := hmem hx
      rw [hage, ← hkey]
      exact (hreleased hxr).elim (h.old y hy) hmin.trans
    · refine State.BehindAll.of_inFlight fun r hr x hx hxr => ?_
      have hr' : s.InFlight r := by
        unfold State.InFlight at hr ⊢
        rwa [State.setOwed_refiner, hframe.refiner] at hr
      obtain ⟨y, hy, hkey, hreleased⟩ := hmem hx
      rw [hage, hage, ← hkey]
      exact (hreleased hxr).elim (h.behind.inFlight hr' y hy) (hws r hr').trans

/-! ### Records at the newest slot (R19, R30) -/

theorem State.Ordered.atNewest (h : s.Ordered) (d : Detail) : (insertRecord s.newestOr d s).Ordered :=
  h.insert s.admits_newestOr d

theorem State.Ordered.raised (h : s.Ordered) (n : Notice) : (raiseBoth n s).Ordered :=
  h.of_refiner (raiseBoth_frame n s).toOnlyRefined rfl h.behind

theorem State.Ordered.setTmu (h : s.Ordered) (x : TimeMarkUnit) : (s.setTmu x).Ordered :=
  h.of_list rfl rfl rfl (fun _ => rfl) h.behind

theorem State.Ordered.changeTiming (h : s.Ordered) (x : TimingState) (c : Nat) : (changeTiming x c s).Ordered :=
  ((h.setTmu _).atNewest _).raised .timing

theorem State.Ordered.timingFinish (h : s.Ordered) : (timingFinish s).Ordered := by
  have howed {t : State} (ht : t.Ordered) (heq : t.owed = s.owed) :
      (t.setOwed { s.owed with timing := false }).Ordered :=
    ht.of_list rfl rfl (by rw [heq]; rfl) (fun _ => rfl) ht.behind
  unfold Machine.timingFinish
  split
  · split
    · exact howed (h.changeTiming _ _) (changeTiming_onlyRecords _ _ s).owed
    · split
      · exact howed (h.changeTiming _ _) (changeTiming_onlyRecords _ _ s).owed
      · exact howed h rfl
  · exact h

theorem State.Ordered.latchMark (h : s.Ordered) (n : Newest) : (latchMark n s).Ordered := by
  unfold Machine.latchMark
  dsimp only
  split
  · exact (h.setTmu _).setTmu _
  · exact (h.setTmu _).changeTiming _ _

/-! ### The slot write (R13, R35) -/

/-- Before the first slot write the next index is 0 (R13). -/
def State.StartsAtZero (s : State) : Prop := s.ring.newest = none → s.intake.nextIndex = 0

theorem State.RingKept.startsAtZero (h : s.RingKept) : s.StartsAtZero := by
  obtain ⟨-, -, hnext, hnewest, -⟩ := h
  intro hn
  have hzero : s.ring.written = 0 := by
    rw [hn] at hnewest
    by_contra hne
    rw [if_neg hne] at hnewest
    cases hnewest
  rw [hnext (by rw [hzero]; decide), hzero]
  rfl

theorem OnlySettled.startsAtZero (h : OnlySettled s t) (hs : s.StartsAtZero) : t.StartsAtZero := by
  unfold State.StartsAtZero
  rw [h.ring, h.intake]
  exact hs

theorem startsAtZero_invariant : FlightInvariant (fun _ => True) State.StartsAtZero where
  same hst h hn := hst.nextIndex.trans (h (hst.newest ▸ hn))
  write _ _ _ _ _ _ := nofun
  unit b _ _ _ h := (unitFinish_frame b _).startsAtZero h
  expiry _ h := (expiryStep_frame _ _).toOnlySettled.startsAtZero h
  scanStart h := (scanStartStep_frame _ _).toOnlySettled.startsAtZero h
  examination _ h := (launchExamination_frame _).toOnlySettled.startsAtZero h
  completion l _ _ h := (completeLane_frame l _).toOnlySettled.startsAtZero h
  read _ _ h := h
  setProfile _ _ _ _ h := h
  setStation _ _ _ h := h
  start h := h
  stop h := h
  reset _ := rfl

/-- At a slot write all ages grow by one slot, at the first by none. -/
theorem writeCore_ages (k : SlotKind) (r : Reading) (hb : s.Bounded) (hzero : s.StartsAtZero) :
    ∃ c ≤ 1, ∀ i, s.age i ≤ 2147483647 → (writeCore k r s).age i = s.age i + c := by
  have hnew : (writeCore k r s).newestOr = s.intake.nextIndex := rfl
  cases hn : s.ring.newest with
  | none =>
    refine ⟨0, Nat.zero_le 1, fun i _ => ?_⟩
    have hold : s.newestOr = 0 := by rw [State.newestOr, hn]; rfl
    rw [State.age, hnew, hzero hn, State.age, hold, Nat.add_zero]
  | some n =>
    refine ⟨1, le_rfl, fun i hi => ?_⟩
    have hnext := hb.next n.index (by rw [State.newestIndex, hn]; rfl)
    rw [State.age, hnew, ← hnext, State.age, newestOr_of_newest hn]
    rw [State.age, newestOr_of_newest hn] at hi
    unfold distance at *
    bv_omega

theorem State.Ordered.write (h : s.Ordered) (hb : s.Bounded) (hzero : s.StartsAtZero) (howed : s.owed = Owed.nothing)
    (k : SlotKind) (r : Reading) : (writeCore k r s).Ordered := by
  obtain ⟨c, hc, hage⟩ := writeCore_ages k r hb hzero
  have hyoung := h.young (by rw [howed]; decide)
  have hbehind (q : Request) (hq : s.Behind q) : (writeCore k r s).Behind q := fun x hx hxr => by
    have hle := hq x hx hxr
    rw [hage _ (hle.trans (h.ages x hx)), hage _ (h.ages x hx)]
    exact Nat.add_le_add_right hle c
  refine ⟨h.sorted, fun x hx => ?_, fun ho => absurd rfl ho, fun x hx hxr => ?_, ?_, nofun⟩
  · rw [hage _ (h.ages x hx)]
    have hlt := hyoung x hx
    omega
  · rw [hage _ (h.ages x hx)]
    exact Nat.le_add_right_of_le (h.old x hx hxr)
  · exact Refiner.All.writeCore h.behind hbehind fun x hx =>
      (Lane.Within.imp hx hbehind fun _ _ _ => trivial).countWrite

/-! ### The requests at the ports -/

theorem State.Ordered.request (h : s.Ordered) {body : State → State × Response} (hbody : RequestBody body) :
    (body s).1.Ordered := by
  have hframe := requestBody_betweenEvents hbody s
  have hbehind : s.BehindAll (body s).1.refiner := by
    rw [hframe.refiner]
    exact h.behind
  have hnewest := congrArg Ring.newest hframe.ring
  have howed := congrArg Owed.list hframe.owed
  have hstation (_ : s.owed.list = .release) := congrArg (fun x : Settings => x.station.holdback) hframe.settings
  rcases requestBody_list hbody s with hsame | ⟨keep, g, hthin, hg⟩
  · exact h.of_list hnewest hsame howed hstation hbehind
  · refine h.of_stay_owed hnewest ?_ howed (by rw [hthin]; rfl) hstation hbehind
    rw [hthin]
    exact s.list.thin_stay keep fun x => by rw [hg]; rfl

theorem grantEngine_owed (p : Port) (s : State) : (grantEngine p s).owed = s.owed := by
  unfold grantEngine
  split
  · dsimp only
    split <;> rfl
  all_goals rfl

theorem State.Ordered.grant (h : s.Ordered) : (grantRead s).Ordered := by
  cases hg : s.grantee with
  | none =>
    rw [grantRead, hg]
    exact h
  | some x =>
    cases x with
    | lane l =>
      rw [grantRead_of_lane hg]
      exact (h.read l).of_list rfl rfl rfl (fun _ => rfl) (h.read l).behind
    | engine p =>
      have hflight := grantEngine_sameFlight p s
      have hlist := grantRead_list s
      rw [grantRead_of_engine hg] at hlist ⊢
      refine h.of_list hflight.newest hlist.1 (congrArg Owed.list (grantEngine_owed p s))
        (fun _ => congrArg Station.holdback hflight.station) ?_
      show s.BehindAll (grantEngine p s).refiner
      rw [hflight.refiner]
      exact h.behind

/-! ### Effect by effect -/

/-- What the order of the records rests on, kept by every effect beside it. -/
structure State.Ground (s : State) : Prop where
  grounded : s.Grounded
  flight : s.FlightKept
  refiner : s.RefinerKept
  startsAtZero : s.StartsAtZero

theorem State.Ground.sound (h : s.Ground) : s.Sound := ⟨h.grounded.2, h.flight, h.refiner⟩

theorem State.Ground.effect (hst : Effect s t) (h : s.Ground) : t.Ground :=
  ⟨State.Grounded.effect hst h.grounded, flightKept_invariant.keeps_effect hst h.grounded h.flight,
    refinerKept_invariant.keeps_effect hst trivial h.refiner,
    startsAtZero_invariant.keeps_effect hst trivial h.startsAtZero⟩

theorem State.Ordered.effect (hst : Effect s t) (hg : s.Ground) (h : s.Ordered) : t.Ordered := by
  have hsame {u : State} (hu : u.Ordered) (hlist : t.list = u.list) (hnewest : t.ring.newest = u.ring.newest)
      (howed : t.owed.list = u.owed.list)
      (hholdback : u.owed.list = .release → t.settings.station.holdback = u.settings.station.holdback)
      (hrefiner : t.refiner = u.refiner) : t.Ordered :=
    hu.of_list hnewest hlist howed hholdback (hrefiner ▸ hu.behind)
  have hnothing (ho : s.owed = Owed.nothing) : s.owed.list ≠ .release := by
    rw [ho]
    decide
  cases hst with
  | intake | time | exchange | dequeue => exact hsame h rfl rfl rfl (fun _ => rfl) rfl
  | write k r howed =>
    obtain ⟨hordered, hsound⟩ := h.overdue hg.sound
    have hframe := completeOverdue_frame s
    exact hordered.write hsound.bounded (hframe.toOnlySettled.startsAtZero hg.startsAtZero)
      (hframe.owed.trans howed) k r
  | unit b => exact h.unitFinish hg.sound (hg.grounded.1.2 b)
  | expiry => exact h.expiry hg.sound _ _
  | scanStart =>
    have howed := congrArg Owed.list (scanStartStep_frame s.newestOr s).owed
    exact hsame (h.scanStart s.newestOr) rfl rfl howed.symm (fun _ => rfl) rfl
  | launch =>
    have howed := congrArg Owed.list (launchExamination_frame s).owed
    exact hsame h.examination rfl rfl howed.symm (fun _ => rfl) rfl
  | examination => exact h.examination
  | completion l => exact h.completion hg.sound l
  | retirement => exact h.retirement _
  | release howed => exact h.release hg.sound howed _ rfl
  | timing => exact h.timingFinish
  | mark n => exact h.latchMark n
  | intakeRecord x => exact (h.atNewest _).raised .intake
  | settled howed => exact hsame h rfl rfl (congrArg Owed.list howed).symm (fun _ => rfl) rfl
  | grant => exact h.grant
  | request body hbody => exact h.request hbody
  | setProfile p b written =>
    cases b with
    | none => exact h
    | some b => exact hsame h rfl rfl rfl (fun _ => rfl) rfl
  | setStation p written howed => exact hsame h rfl rfl rfl (fun hr => absurd hr (hnothing howed)) rfl
  | start => exact hsame h rfl rfl rfl (fun _ => rfl) rfl
  | stop => exact h.of_list rfl rfl rfl (fun _ => rfl) (Refiner.Empty.all (stopCore_empty s) trivial)
  | power level held q =>
    have hreset := ((State.inListOrder_iff _).1 reset_inListOrder).1
    exact hsame hreset rfl rfl rfl (fun _ => rfl) rfl

theorem ordered_step (hg : s.Ground) (h : s.Ordered) (ht : step s = .next t) : t.Ordered :=
  ((step_effects ht).keeps (P := fun s => s.Ground ∧ s.Ordered)
    (fun he hs => ⟨State.Ground.effect he hs.1, State.Ordered.effect he hs.1 hs.2⟩) ⟨hg, h⟩).2

end

end Sys2Proof.Machine
end

section
/-! Before the first slot write the list is empty, through every step (R13, R19): nothing is owed and nothing is in
flight then, so nothing hands a record over, and an INTAKE record follows a slot write of its own. -/

namespace Sys2Proof.Machine

/-- Before the first slot write nothing is owed, nothing is in flight and the list is empty. -/
def State.Blank (s : State) : Prop :=
  s.ring.newest = none → s.owed = Owed.nothing ∧ s.refiner.Empty ∧ s.list.records = []

section
variable {s t : State}

theorem State.Blank.of_some (h : s.ring.newest ≠ none) : s.Blank := fun hn => absurd hn h

/-- Beside the readers, the ports, the units and time nothing differs. -/
theorem State.Blank.of_same (h : s.Blank) (hring : t.ring.newest = s.ring.newest) (howed : t.owed = s.owed)
    (hrefiner : t.refiner = s.refiner) (hrecords : t.list.records = s.list.records) : t.Blank := by
  unfold State.Blank
  rw [hring, howed, hrefiner, hrecords]
  exact h

/-- What leaves a state that owes nothing and has an empty refiner as it is. -/
theorem State.Blank.of_identity (h : s.Blank) (hring : t.ring.newest = s.ring.newest)
    (hsame : s.owed = Owed.nothing → s.refiner.Empty → t = s) : t.Blank := by
  intro hn
  have hblank := h (hring ▸ hn)
  rw [hsame hblank.1 hblank.2.1]
  exact hblank

theorem Lanes.eq_all {α : Type} {x : Lanes α} {v : α} (h : ∀ l, x.get l = v) : x = Lanes.all v := by
  obtain rfl := h .l0
  have h1 := h .l1
  have h2 := h .l2
  have h3 := h .l3
  cases x
  simp_all [Lanes.get, Lanes.all]

theorem State.blank_of_requestsKept (hrequests : s.RequestsKept) (hlist : s.ring.newest = none → s.list.records = []) :
    s.Blank := by
  intro hn
  obtain ⟨-, -, -, -, hempty⟩ := hrequests
  obtain ⟨howed, hflight, -⟩ := hempty hn
  refine ⟨howed, ⟨List.eq_nil_iff_forall_not_mem.2 fun r hr => hflight r (.inl hr), ?_⟩, hlist hn⟩
  refine Lanes.eq_all fun l => ?_
  cases hl : s.refiner.lanes.get l with
  | free => rfl
  | waiting r => exact absurd (.inr ⟨l, by rw [hl]; rfl⟩) (hflight r)
  | scanning r w => exact absurd (.inr ⟨l, by rw [hl]; rfl⟩) (hflight r)
  | resolving r w k => exact absurd (.inr ⟨l, by rw [hl]; rfl⟩) (hflight r)

/-! ### The handlings of a slot write -/

theorem State.Blank.settleOwed (h : s.Blank) : (settleOwed s).Blank :=
  h.of_identity (by rw [(settleOwed_frame s).ring]) fun ho _ => settleOwed_of_nothing ho

theorem State.Blank.finishBegun (h : s.Blank) : (finishBegun s).Blank :=
  h.of_identity (by rw [(finishBegun_frame s).ring]) fun ho _ =>
    finishBegun_of_nothing (by rw [ho]; decide) (by rw [ho]; decide)

theorem State.Blank.refinerFinish (h : s.Blank) : (refinerFinish s).Blank :=
  h.of_identity (by rw [(refinerFinish_frame s).ring]) fun ho _ => refinerFinish_of_done (by rw [ho]; rfl)

theorem State.Blank.refinerExpiry (h : s.Blank) : (refinerExpiry s).Blank :=
  h.of_identity (by rw [(refinerExpiry_frame s).ring]) fun ho _ => by rw [Machine.refinerExpiry, ho]; rfl

theorem State.Blank.refinerScanStart (h : s.Blank) : (refinerScanStart s).Blank :=
  h.of_identity (by rw [(refinerScanStart_frame s).ring]) fun ho _ => by
    rw [Machine.refinerScanStart, Machine.refinerExpiry, ho]
    dsimp only [Owed.nothing]
    rw [ho]
    rfl

theorem State.Blank.listRetire (h : s.Blank) : (listRetire s).Blank :=
  h.of_identity (by rw [(listRetire_frame s).ring]) fun ho _ => by rw [Machine.listRetire, ho]; rfl

theorem State.Blank.listFinish (h : s.Blank) : (listFinish s).Blank :=
  h.of_identity (by rw [(listFinish_frame s).ring]) fun ho _ => listFinish_of_done (by rw [ho]; rfl)

theorem State.Blank.finishRefiner (h : s.Blank) : (finishRefiner s).Blank := by
  unfold Machine.finishRefiner
  split
  · exact h.refinerFinish
  · exact h.refinerFinish
  all_goals exact h

theorem State.Blank.finishList (h : s.Blank) : (finishList s).Blank := by
  unfold Machine.finishList
  split
  · exact h.listFinish
  all_goals exact h

theorem State.Blank.timingFinish (h : s.Blank) : (timingFinish s).Blank :=
  h.of_identity (by rw [(timingFinish_frame s).ring]) fun ho _ => timingFinish_of_none (by rw [ho]; rfl)

theorem State.Blank.unitRow (h : s.Blank) (d : UnitDue) (b : Band) : (unitRow d b s).Blank := by
  unfold Machine.unitRow
  split
  · exact h.of_identity (by rw [(unitFinish_frame b s).ring]) fun ho _ =>
      unitFinish_of_none (by rw [ho]; exact Bands.get_all _ b)
  · exact h

theorem launchLoop_of_empty (fuel : Nat) (h : s.refiner.queue = []) : launchLoop fuel s = s := by
  cases fuel with
  | zero => rfl
  | succ fuel => rw [launchLoop, h]

theorem State.Blank.examination (h : s.Blank) : (launchExamination s).Blank :=
  h.of_identity (by rw [(launchExamination_frame s).ring]) fun _ hempty => by
    unfold launchExamination
    rw [launchLoop_of_empty _ hempty.1, ite_self]

theorem State.Blank.completion (h : s.Blank) (l : LaneId) : (completeLane l s).Blank :=
  h.of_identity (by rw [(completeLane_frame l s).ring]) fun _ hempty => by
    rw [completeLane, hempty.2, Lanes.get_all]

/-- Nothing is granted before the first slot write (R38). -/
theorem newest_of_grantee {g : Grantee} (h : s.grantee = some g) : s.ring.newest ≠ none := by
  intro hn
  unfold State.grantee at h
  rw [if_neg (by rw [hn]; simp)] at h
  cases h

theorem State.Blank.grant (h : s.Blank) : (grantRead s).Blank := by
  cases hg : s.grantee with
  | none =>
    rw [grantRead, hg]
    exact h
  | some g =>
    have hsome := newest_of_grantee hg
    refine .of_some ?_
    cases g with
    | lane l =>
      rw [grantRead_of_lane hg]
      exact hsome
    | engine p =>
      rw [grantRead_of_engine hg]
      show (grantEngine p s).ring.newest ≠ none
      rwa [(grantEngine_sameFlight p s).newest]

/-! ### Slot writes, frames and timers -/

theorem writeSlot_blank (k : SlotKind) (r : Reading) (s : State) : (writeSlot k r s).Blank :=
  .of_some (by rw [(writeSlot_wroteSlot k r s).1]; exact nofun)

theorem intakeRecord_writeSlot_blank (x : IntakeType) (k : SlotKind) (r : Reading) (s : State) :
    (intakeRecord x (writeSlot k r s)).Blank :=
  .of_some (by rw [(intakeRecord_frame x _).ring, (writeSlot_wroteSlot k r s).1]; exact nofun)

theorem State.Blank.setIntake (h : s.Blank) (f : FrameIntake) : (s.setIntake f).Blank := h.of_same rfl rfl rfl rfl

theorem State.Blank.setNow (h : s.Blank) (now : Nat) : (s.setNow now).Blank := h.of_same rfl rfl rfl rfl

theorem State.Blank.setPort (h : s.Blank) (p : Port) (i : PortInterface) : (s.setPort p i).Blank :=
  h.of_same rfl rfl rfl rfl

/-- A blank state beside itself: frames and the slots in hand keep it. -/
theorem blank_framesAlike : FramesAlike fun s t => t = s ∧ s.Blank where
  intake h := by rw [h.1]
  now h := by rw [h.1]
  settings h := by rw [h.1]
  setIntake f h := ⟨by rw [h.1], h.2.setIntake f⟩
  write k r h := ⟨by rw [h.1], writeSlot_blank k r _⟩
  record x k r h := ⟨by rw [h.1], intakeRecord_writeSlot_blank x k r _⟩
  settleOwed h := ⟨by rw [h.1], h.2.settleOwed⟩

theorem State.Blank.judgeComplete (h : s.Blank) : (judgeComplete s).Blank :=
  (blank_framesAlike.judgeComplete ⟨rfl, h⟩).2

theorem State.Blank.writeHeldSlots (h : s.Blank) (n : Nat) : (writeHeldSlots n s).Blank := by
  induction n generalizing s with
  | zero => exact h
  | succ n ih => exact ih (blank_framesAlike.writeHeld ⟨rfl, h⟩).2

theorem State.Blank.settle (h : s.Blank) : (settle s).Blank := (blank_framesAlike.settle ⟨rfl, h⟩).2

theorem State.Blank.expireTimer (h : s.Blank) (k : Timer) : (expireTimer k s).Blank := by
  cases k with
  | assembly => exact (blank_framesAlike.damagedFrame ⟨rfl, h.setIntake _⟩).2
  | link =>
    simp only [Machine.expireTimer, expireLink]
    split
    · exact intakeRecord_writeSlot_blank .begins .gap _ _
    all_goals exact h.setIntake _
  | gapSlot =>
    simp only [Machine.expireTimer, expireGapSlot]
    split
    · exact writeSlot_blank .gap _ _
    all_goals exact h.setIntake _

theorem State.Blank.changeDivider (h : s.Blank) : (changeDivider s).Blank := by
  unfold Machine.changeDivider
  dsimp only
  split
  · exact intakeRecord_writeSlot_blank .begins .gap _ _
  all_goals exact h.setIntake _

/-! ### The line and time -/

theorem State.Blank.deliverByte (h : s.Blank) (v : LinkByte) : (deliverByte v s).Blank := by
  have hjudged := h.judgeComplete
  unfold Machine.deliverByte
  dsimp only
  split
  · split
    · exact hjudged.setIntake _
    · exact hjudged
  · exact hjudged.setIntake _

theorem State.Blank.sampleByte (h : s.Blank) (n : Nat) (rx : Receiver) (v : LinkByte) : (sampleByte n rx v s).Blank :=
  ((h.setNow _).setIntake _).deliverByte v

theorem State.Blank.advanceLoop (h : s.Blank) (fuel target : Nat) : (advanceLoop fuel target s).Blank := by
  induction fuel generalizing s with
  | zero => exact (h.setNow _).setIntake _
  | succ fuel ih =>
    unfold Machine.advanceLoop
    dsimp only
    split
    · exact ih (h.sampleByte _ _ _).settle
    · exact ih (((h.setNow _).setIntake _).expireTimer _).settle
    · exact (h.setNow _).setIntake _

theorem State.Blank.advanceTo (h : s.Blank) (target : Nat) : (advanceTo target s).Blank := by
  unfold Machine.advanceTo
  split
  · exact h.settle.advanceLoop _ _
  · exact h

theorem State.Blank.runTimer (h : s.Blank) (k : Timer) : (runTimer k s).Blank := by
  unfold Machine.runTimer
  dsimp only
  split
  · exact h.settle
  · split
    · exact (h.settle.advanceTo _).expireTimer k
    · exact h.settle.advanceTo _

theorem State.Blank.takeSample (h : s.Blank) : (takeSample s).Blank := by
  unfold Machine.takeSample
  dsimp only
  split
  · exact h.sampleByte _ _ _
  · exact (h.setNow _).setIntake _

theorem State.Blank.takeRuns (h : s.Blank) (line : Line) :
    (line.foldl (fun t x => takeRun x.1 x.2 t) s).Blank := by
  induction line generalizing s with
  | nil => exact h
  | cons x line ih =>
    refine ih ?_
    unfold takeRun
    dsimp only
    split
    · exact h.setIntake _
    · exact ((h.setIntake _).advanceTo _).takeSample

/-! ### Requests (R172, R173, R175) -/

theorem State.Blank.transact (h : s.Blank) {body : State → State × Response}
    (hbody : ∀ {t : State}, t.Blank → (body t).1.Blank) (p : Port) (clocks : Nat) :
    (transact p clocks body s).Blank := by
  unfold Machine.transact
  split
  · exact h.setPort p _
  · exact (hbody (h.finishBegun.setPort p _)).setPort p _

theorem State.Blank.request (h : s.Blank) {body : State → State × Response} (hbody : RequestBody body) :
    (body s).1.Blank := by
  have hframe := requestBody_betweenEvents hbody s
  intro hn
  rw [hframe.ring] at hn
  obtain ⟨howed, hempty, hrecords⟩ := h hn
  refine ⟨hframe.owed.trans howed, hframe.refiner ▸ hempty, ?_⟩
  rcases requestBody_list hbody s with hsame | ⟨keep, g, hthin, -⟩
  · rw [hsame, hrecords]
  · rw [hthin, PickList.thin, hrecords]
    rfl

theorem State.Blank.setProfile (h : s.Blank) (p : Port) (b : Option Band) (written : Profile) :
    (setProfileBody p b written s).1.Blank := by
  cases b <;> exact h.of_same rfl rfl rfl rfl

theorem State.Blank.start (h : s.Blank) : (startBody s).1.Blank := by
  unfold startBody
  split
  · exact h.of_same rfl rfl rfl rfl
  · exact h

theorem State.Blank.stop (h : s.Blank) : (stopBody s).1.Blank := by
  unfold stopBody
  split
  · exact fun hn => ⟨(h hn).1, stopCore_empty s, (h hn).2.2⟩
  · exact h

theorem State.Blank.setStation (h : s.Blank) (p : Port) (written : Station) :
    (setStationBody p written (settleForStation (clampStation written) s)).1.Blank := by
  have hsettled : (settleForStation (clampStation written) s).Blank := by
    unfold settleForStation
    split
    · exact h.settleOwed
    · exact h.settle
  have haccepted := hsettled.of_same (t := (settleForStation (clampStation written) s).acceptedStation p
    (clampStation written)) rfl rfl rfl rfl
  unfold setStationBody acceptStation
  dsimp only
  split
  · split
    · exact haccepted
    · exact haccepted.changeDivider
  · exact hsettled

/-! ### Commands and steps -/

theorem State.Blank.of_next {u : State} (h : s.Blank) (ht : (.next s : Host.Outcome State Fault Refusal) = .next u) :
    u.Blank := by
  cases ht
  exact h

theorem State.Blank.execSettling (h : s.Blank) {c : Instr} {p : Port} {rest : List Bool}
    (hc : c = .setProfile p rest ∨ c = .setStation p rest ∨ c = .start p rest ∨ c = .stop p rest)
    (ht : exec c s = .next t) : t.Blank := by
  rcases hc with rfl | rfl | rfl | rfl
  · rcases exec_setProfile_transact p rest with ⟨b, written, hexec⟩ | ⟨-, hexec⟩
    · exact (h.transact (fun hu => hu.settleOwed.setProfile p b written) p _).of_next ((hexec s).symm.trans ht)
    · exact (h.transact (fun hu => hu) p _).of_next ((hexec s).symm.trans ht)
  · replace ht : execSetStation p rest s = .next t := ht
    unfold execSetStation at ht
    dsimp only at ht
    split at ht
    · exact (h.transact (fun hu => hu) p _).of_next ht
    · exact (h.transact (fun hu => hu.setStation p _) p _).of_next ht
  · exact (h.transact (fun hu => hu.settleOwed.start) p _).of_next ht
  · exact (h.transact (fun hu => hu.settleOwed.stop) p _).of_next ht

theorem State.Blank.execTransaction (h : s.Blank) {c : Instr} {p : Port} {bits : List Bool}
    (hc : encodeTransaction c = some (p, bits)) (ht : exec c s = .next t) : t.Blank := by
  rcases transaction_of_encode hc with ⟨_, -, hexec⟩ | ⟨body, hbody, hexec⟩ | ⟨body, rest, hsettling, -⟩
  · cases (hexec s).symm.trans ht
  · exact (h.transact (fun hu => hu.request hbody) p _).of_next ((hexec s).symm.trans ht)
  · exact h.execSettling hsettling ht

theorem reset_blank : State.reset.Blank := fun _ => ⟨rfl, ⟨rfl, rfl⟩, rfl⟩

theorem State.Blank.execTimeMark (h : s.Blank) (after : Nat) (ht : execTimeMark after s = .next t) : t.Blank := by
  have hsettled := (h.advanceTo (s.clock.now + after)).settleOwed
  unfold Machine.execTimeMark at ht
  dsimp only at ht
  split at ht
  · exact hsettled.of_next ht
  · rename_i n hn
    refine State.Blank.of_next (.of_some ?_) ht
    rw [(latchMark_frame n _).ring, hn]
    exact nofun

theorem State.Blank.execReadGrant (h : s.Blank) (ht : execReadGrant s = .next t) : t.Blank := by
  unfold Machine.execReadGrant at ht
  dsimp only at ht
  split at ht
  · exact h.settle.of_next ht
  · exact (h.settle.advanceTo _).grant.of_next ht

theorem State.Blank.timingFinish_if (h : s.Blank) (due : Prop) [Decidable due] :
    (if due then Machine.timingFinish s else s).Blank := by
  split
  · exact h.timingFinish
  · exact h

theorem State.Blank.exec (h : s.Blank) (c : Instr) (ht : exec c s = .next t) : t.Blank := by
  cases c with
  | powerOn =>
    refine State.Blank.of_next ?_ ht
    exact reset_blank.of_same rfl rfl rfl rfl
  | reset edge =>
    cases edge <;>
    · refine State.Blank.of_next ?_ ht
      exact reset_blank.of_same rfl rfl rfl rfl
  | frame hold => exact (h.judgeComplete.writeHeldSlots _).of_next ht
  | assemblyTimerExpiry => exact (h.runTimer .assembly).of_next ht
  | linkTimerExpiry => exact (h.runTimer .link).of_next ht
  | gapSlotTimerExpiry => exact (h.runTimer .gapSlot).of_next ht
  | timeMark after => exact h.execTimeMark after ht
  | gapRunEvent => exact (((h.finishBegun.unitRow _ .b0).unitRow _ .b1).unitRow _ .b2).of_next ht
  | watchExpiry | holdoverExpiry => exact (h.finishBegun.timingFinish_if _).of_next ht
  | warmCountExpiry b | primaryDeclaration b | stackedDeclaration b | maxDurExpiry b | deadCountExpiry b =>
    exact (h.finishBegun.unitRow _ b).of_next ht
  | launch => exact h.finishList.refinerFinish.examination.of_next ht
  | scanStart => exact h.finishList.refinerScanStart.of_next ht
  | readGrant => exact h.execReadGrant ht
  | resolutionCompletion l => exact (h.settleOwed.completion l).of_next ht
  | deadlineExpiry => exact h.finishList.refinerExpiry.of_next ht
  | release => exact h.finishRefiner.listFinish.of_next ht
  | retirement => exact h.finishRefiner.listRetire.of_next ht
  | lockedOutSelect p clocks held =>
    replace ht : execLockedOutSelect p clocks s held = .next t := ht
    unfold execLockedOutSelect at ht
    split at ht
    all_goals exact (h.setPort p _).of_next ht
  | byteDelivered line => exact (h.takeRuns line).of_next ht
  | identify | status | attachAll | attachFromNow | attachUnknownMode | detach | take | confirm | rewind | fetch
    | readFetch | getProfile | setProfile | getStation | setStation | setPort | start | stop | getAnchor | portReset
    | unknownRequest | emptyTransaction => exact h.execTransaction rfl ht

theorem State.Blank.step (h : s.Blank) (ht : step s = .next t) : t.Blank := by
  unfold Machine.step at ht
  split at ht
  · refine State.Blank.of_next ?_ ht
    unfold idle
    split
    · exact h.settle
    · split
      · exact h.completion _
      · split
        · exact h.grant
        · exact h.advanceTo _
  · rename_i c rest _
    exact (h.of_same (t := { s with pending := rest }) rfl rfl rfl rfl).exec c ht

end

/-- Settles O10: the list and the flags by what reaches the records and the readers, list order beside what the requests
in flight rest on. -/
theorem listAndBacklogsKeptByEveryStep : Obligations.ListAndBacklogsKeptByEveryStep := by
  refine ⟨fun s t hs ht => listKept_invariant.keeps_step hs ht, fun s t => backlogsKept_step, ?_⟩
  intro s t hring hlegal hcore hunits hrefiner hrequests horder ht
  obtain ⟨hordered, hlist⟩ := (State.inListOrder_iff s).1 horder
  have hground : s.Ground := ⟨⟨⟨hcore, hunits⟩, State.bounded_of_kept hring hlegal⟩,
    (State.requestsKept_iff s).1 hrequests, hrefiner, hring.startsAtZero⟩
  refine (State.inListOrder_iff t).2 ⟨ordered_step hground hordered ht, fun hn => ?_⟩
  obtain ⟨-, -, hblank⟩ := (State.blank_of_requestsKept hrequests hlist).step ht hn
  exact hblank

end Sys2Proof.Machine
end

section
/-! The delivered sequences and the marks through every step (R138, R139): what one reader holds, against the records
that are there. -/

namespace Sys2Proof.Machine

/-! ### The condition on one reader -/

/-- `State.ReadersKept` of one reader and the records that are there. -/
structure Reader.Kept (rd : Reader) (p : Port) (rs : List Record) : Prop where
  detached : rd.attached = false → rd.delivered = [] ∧ ∀ r ∈ rs, r.marks.get p = false
  length_le : rd.delivered.length ≤ 16
  nodup : rd.delivered.Nodup
  present : ∀ v ∈ rd.delivered, ∃ r ∈ rs, r.serial = v ∧ r.released = true ∧ r.marks.get p = false

/-- That condition on a port's reader in a state. -/
def State.ReaderKept (s : State) (p : Port) : Prop := (s.readers.get p).Kept p s.list.records

theorem State.readersKept_iff (s : State) : s.ReadersKept ↔ ∀ p, s.ReaderKept p :=
  forall_congr' fun _ => ⟨fun ⟨hdetached, hlength, hnodup, hpresent⟩ => ⟨hdetached, hlength, hnodup, hpresent⟩,
    fun ⟨hdetached, hlength, hnodup, hpresent⟩ => ⟨hdetached, hlength, hnodup, hpresent⟩⟩

section
variable {rd rd' : Reader} {p : Port} {rs rs' : List Record} {r : Record}

/-- A sequence that is not empty is an attached reader's. -/
theorem Reader.Kept.attached (h : rd.Kept p rs) {v : Serial} (hv : v ∈ rd.delivered) : rd.attached = true := by
  refine Bool.eq_true_of_not_eq_false fun hdetached => ?_
  rw [(h.detached hdetached).1] at hv
  cases hv

/-- With part of the sequence left and none of its records gone or marked, the condition stays. -/
theorem Reader.Kept.imp (h : rd.Kept p rs) (hattached : rd'.attached = rd.attached)
    (hsub : rd'.delivered.Sublist rd.delivered)
    (hmarks : rd.attached = false → (∀ x ∈ rs, x.marks.get p = false) → ∀ x ∈ rs', x.marks.get p = false)
    (hpresent : ∀ x ∈ rs, x.serial ∈ rd'.delivered → x.released = true → x.marks.get p = false →
      ∃ y ∈ rs', y.serial = x.serial ∧ y.released = true ∧ y.marks.get p = false) : rd'.Kept p rs' where
  detached hdetached := by
    rw [hattached] at hdetached
    obtain ⟨hempty, hunmarked⟩ := h.detached hdetached
    exact ⟨List.sublist_nil.1 (hempty ▸ hsub), hmarks hdetached hunmarked⟩
  length_le := hsub.length_le.trans h.length_le
  nodup := h.nodup.sublist hsub
  present v hv := by
    obtain ⟨x, hx, rfl, hreleased, hmark⟩ := h.present v (hsub.subset hv)
    exact hpresent x hx hv hreleased hmark

theorem Reader.Kept.of_subset (h : rd.Kept p rs) (hsub : rs ⊆ rs')
    (hmarks : (∀ x ∈ rs, x.marks.get p = false) → ∀ x ∈ rs', x.marks.get p = false) : rd.Kept p rs' :=
  h.imp rfl (List.Sublist.refl _) (fun _ => hmarks) fun x hx _ hreleased hmark => ⟨x, hsub hx, rfl, hreleased, hmark⟩

theorem Reader.Kept.of_perm (h : rd.Kept p rs) (hperm : rs'.Perm rs) : rd.Kept p rs' :=
  h.of_subset hperm.symm.subset fun hmarks x hx => hmarks x (hperm.subset hx)

theorem Reader.Kept.of_empty (hempty : rd.delivered = [])
    (hmarks : rd.attached = false → ∀ x ∈ rs, x.marks.get p = false) : rd.Kept p rs where
  detached hdetached := ⟨hempty, hmarks hdetached⟩
  length_le := by simp [hempty]
  nodup := by simp [hempty]
  present := by simp [hempty]

/-- The threshold and the armed flag say nothing of the sequence (R138). -/
theorem Reader.Kept.congr (h : rd.Kept p rs) (hattached : rd'.attached = rd.attached)
    (hdelivered : rd'.delivered = rd.delivered) : rd'.Kept p rs :=
  h.imp hattached (hdelivered ▸ .refl _) (fun _ => id) fun x hx _ hreleased hmark => ⟨x, hx, rfl, hreleased, hmark⟩

/-- A record that is handed over bears no mark (R122). -/
theorem Reader.Kept.cons (h : rd.Kept p rs) (hr : r.marks.get p = false) : rd.Kept p (r :: rs) :=
  h.of_subset (List.subset_cons_self r rs) fun hmarks => List.forall_mem_cons.2 ⟨hr, hmarks⟩

/-- A lost record leaves the sequence of a reader that has not confirmed it (R130). -/
theorem Reader.Kept.losing (h : rd.Kept p (r :: rs)) : (rd.losing p r).Kept p rs := by
  have hsub : (rd.losing p r).delivered.Sublist rd.delivered := by
    unfold Reader.losing
    dsimp only
    split
    · exact List.erase_sublist
    · exact .refl _
  refine h.imp rfl hsub (fun _ hmarks => (List.forall_mem_cons.1 hmarks).2) fun x hx hv hreleased hmark => ?_
  rcases List.mem_cons.1 hx with rfl | hx
  · rw [Reader.losing_of_loses ((rd.loses_iff p x).2 ⟨h.attached (hsub.subset hv), hmark⟩)] at hv
    exact absurd hv h.nodup.not_mem_erase
  · exact ⟨x, hx, rfl, hreleased, hmark⟩

/-- What is removed, an attached reader has confirmed, and what stays keeps its serial, its mark and its release
(R127). -/
theorem Reader.Kept.thin {l : PickList} {keep : Record → Bool} {g : Record → Record} (h : rd.Kept p l.records)
    (hserial : ∀ x, (g x).serial = x.serial) (hreleased : ∀ x, x.released = true → (g x).released = true)
    (hmark : ∀ x, (g x).marks.get p = x.marks.get p)
    (hgone : rd.attached = true → ∀ x, keep x = false → x.marks.get p = true) :
    rd.Kept p (l.thin keep g).records := by
  refine h.imp rfl (List.Sublist.refl _) (fun _ hmarks y hy => ?_) fun x hx hv hxr hxm => ?_
  · obtain ⟨x, hx, rfl⟩ := List.mem_map.1 hy
    exact (hmark x).trans (hmarks x (List.mem_filter.1 hx).1)
  · have hkeep : keep x = true := Bool.eq_true_of_not_eq_false fun hx => by
      rw [hgone (h.attached hv) x hx] at hxm
      cases hxm
    exact ⟨g x, List.mem_map_of_mem (List.mem_filter.2 ⟨hx, hkeep⟩), hserial x, hreleased x hxr, (hmark x).trans hxm⟩

/-- A delivered record joins the end of a sequence that has room (R145). -/
theorem Reader.Kept.deliver (h : rd.Kept p rs) (hattached : rd.attached = true) (hroom : rd.delivered.length < 16)
    (hr : r ∈ rs) (havailable : available p rd r = true) :
    Reader.Kept { rd with delivered := rd.delivered ++ [r.serial] } p rs := by
  obtain ⟨⟨hreleased, hmark⟩, hnew⟩ :
      (r.released = true ∧ r.marks.get p = false) ∧ r.serial ∉ rd.delivered := by
    simpa [available] using havailable
  refine ⟨fun hdetached => absurd hattached (ne_true_of_eq_false hdetached), ?_, ?_, fun v hv => ?_⟩
  · rw [List.length_append]
    exact hroom
  · exact List.nodup_append_comm.1 (List.nodup_cons.2 ⟨hnew, h.nodup⟩)
  · rcases List.mem_append.1 hv with hv | hv
    · exact h.present v hv
    · exact ⟨r, hr, (List.mem_singleton.1 hv).symm, hreleased, hmark⟩

/-- The records confirmed are marked and leave the sequence; those after them stay as they were (R148). -/
theorem Reader.Kept.confirm {l : PickList} {vs left : List Serial} {keep : Record → Bool} (h : rd.Kept p l.records)
    (hattached : rd.attached = true) (hsplit : rd.delivered = vs ++ left)
    (hgone : ∀ x, keep x = false → vs.contains x.serial = true) :
    Reader.Kept { rd with delivered := left } p
      (l.thin keep fun x => if vs.contains x.serial then x.mark p true else x).records := by
  have hnodup : (vs ++ left).Nodup := hsplit ▸ h.nodup
  refine h.imp rfl (hsplit ▸ List.sublist_append_right vs left)
    (fun hdetached => absurd hattached (ne_true_of_eq_false hdetached)) fun x hx hv hreleased hmark => ?_
  have hstays : ¬ vs.contains x.serial = true := fun hc => List.disjoint_of_nodup_append hnodup (by simpa using hc) hv
  have hkeep : keep x = true := Bool.eq_true_of_not_eq_false fun hx => hstays (hgone x hx)
  exact ⟨x, List.mem_map.2 ⟨x, List.mem_filter.2 ⟨hx, hkeep⟩, if_neg hstays⟩, rfl, hreleased, hmark⟩

end

/-! ### The operations on the records -/

section
variable {s t : State} {p q : Port}

theorem State.ReaderKept.beside (h : s.ReaderKept q) (hrecords : t.list.records = s.list.records)
    (hreader : t.readers.get q = s.readers.get q) : t.ReaderKept q := by
  unfold State.ReaderKept
  rw [hrecords, hreader]
  exact h

theorem evaluateBacklog_readerKept (p : Port) (h : s.ReaderKept q) : (evaluateBacklog p s).ReaderKept q := by
  unfold State.ReaderKept
  rw [evaluateBacklog_list, evaluateBacklog_reader]
  split
  · rename_i hq
    subst hq
    exact Reader.Kept.congr h rfl rfl
  · exact h

theorem evaluateBacklogs_readerKept (h : s.ReaderKept q) : (evaluateBacklogs s).ReaderKept q :=
  evaluateBacklog_readerKept .b (evaluateBacklog_readerKept .a h)

theorem loseRecordBoth_kept {r : Record} {rs : List Record} (h : (s.readers.get q).Kept q (r :: rs)) :
    ((loseRecordBoth r s).readers.get q).Kept q rs := by
  rw [loseRecordBoth_reader]
  exact h.losing.congr rfl rfl

/-- Records lost one after another leave each sequence to the records that stay. -/
theorem foldl_loseRecordBoth_kept {lost rs : List Record} (h : (s.readers.get q).Kept q (lost ++ rs)) :
    ((lost.foldl (fun t r => loseRecordBoth r t) s).readers.get q).Kept q rs := by
  induction lost generalizing s with
  | nil => exact h
  | cons r lost ih => exact ih (loseRecordBoth_kept h)

theorem PickList.inserted_kept {rd : Reader} {l : PickList} (h : rd.Kept q l.records) (key : Index) (d : Detail) :
    rd.Kept q (l.inserted key d).records :=
  (h.cons (Ports.get_all false q)).of_perm (placeRecord_perm (l.handed key d) l.records)

theorem nearFullRise_readers (s : State) : (nearFullRise s).readers = s.readers := by
  unfold nearFullRise
  split <;> rfl

/-- A hand-over, in place of the head where the list is full (R122, R129, R130). -/
theorem insertRecord_readerKept (key : Index) (d : Detail) (h : s.ReaderKept q) :
    (insertRecord key d s).ReaderKept q := by
  by_cases hroom : s.list.records.length < 64
  · rw [insertRecord_of_not_full hroom]
    exact State.ReaderKept.beside (s := { s with list := s.list.inserted key d }) (PickList.inserted_kept h key d)
      (nearFullRise_records _) (by rw [nearFullRise_readers])
  · have hfull := Nat.le_of_not_lt hroom
    unfold State.ReaderKept at h
    cases hrecords : s.list.records with
    | nil =>
      rw [hrecords] at hfull
      cases hfull
    | cons head more =>
      rw [hrecords] at h
      rw [insertRecord_of_full hrecords hfull]
      have hlost := loseRecordBoth_kept (s := s.setRecords more) h
      exact PickList.inserted_kept (l := (s.setRecords more).list) hlost key d

/-- A retirement loses the records at the age limit (R132). -/
theorem retireRecords_readerKept (n : Index) (h : s.ReaderKept q) : (retireRecords n s).ReaderKept q := by
  cases hold : s.list.records.any (ageLimit n) with
  | false => rwa [retireRecords_of_not_due hold]
  | true =>
    rw [retireRecords_of_due hold]
    unfold State.ReaderKept PickList.thin
    rw [List.map_id]
    exact foldl_loseRecordBoth_kept (s := s.setRecords (s.list.records.filter fun r => !ageLimit n r))
      (Reader.Kept.of_perm h (List.filter_append_perm (ageLimit n) s.list.records))

theorem Record.releaseAt_marks (h : Nat) (n : Index) (r : Record) : (r.releaseAt h n).marks = r.marks := by
  unfold Record.releaseAt
  split <;> rfl

theorem Record.releaseAt_of_released (h : Nat) (n : Index) {r : Record} (hr : r.released = true) :
    (r.releaseAt h n).released = true := by
  unfold Record.releaseAt
  split
  · rfl
  · exact hr

/-- A release removes what every attached reader has confirmed (R125, R127). -/
theorem releaseRecords_readerKept (n : Index) (h : s.ReaderKept q) : (releaseRecords n s).ReaderKept q := by
  cases hdue : s.list.records.any (releaseDue s.list.holdback n) with
  | false => rwa [releaseRecords_of_not_due hdue]
  | true =>
    rw [releaseRecords_of_due hdue]
    refine evaluateBacklogs_readerKept (Reader.Kept.thin h (Record.releaseAt_serial _ n)
      (fun x => Record.releaseAt_of_released _ n) (fun x => by rw [Record.releaseAt_marks]) fun hattached x hgone => ?_)
    rw [Bool.not_eq_false', Bool.and_eq_true] at hgone
    obtain ⟨-, -, hconfirmed⟩ := (s.removable_iff _).1 hgone.2
    rw [← Record.releaseAt_marks]
    exact hconfirmed q hattached

/-! ### The requests of a reader -/

/-- A removal and marks of another reader: what goes, an attached reader has confirmed (R127). -/
theorem State.ReaderKept.marked_other (hq : q ≠ p) (h : s.ReaderKept q) {keep : Record → Bool} {g : Record → Record}
    (hg : ∀ x, g x = x ∨ ∃ m, g x = x.mark p m) (hrecords : t.list.records = (s.list.thin keep g).records)
    (hreader : t.readers.get q = s.readers.get q)
    (hgone : (s.readers.get q).attached = true → ∀ x, keep x = false → x.marks.get q = true) : t.ReaderKept q := by
  have hsame (x : Record) : (g x).serial = x.serial ∧ (g x).released = x.released
      ∧ (g x).marks.get q = x.marks.get q := by
    rcases hg x with heq | ⟨m, heq⟩
    · rw [heq]
      exact ⟨rfl, rfl, rfl⟩
    · rw [heq]
      exact ⟨rfl, rfl, Ports.get_set_other _ _ hq⟩
  unfold State.ReaderKept
  rw [hrecords, hreader]
  exact Reader.Kept.thin h (fun x => (hsame x).1) (fun x hx => (hsame x).2.1.trans hx) (fun x => (hsame x).2.2) hgone

/-- The reader that a port's request has changed, as the state then holds it. -/
theorem State.ReaderKept.of_set {rd : Reader} (hreaders : t.readers = s.readers.set q rd)
    (h : rd.Kept q t.list.records) : t.ReaderKept q := by
  unfold State.ReaderKept
  rwa [hreaders, Ports.get_set_same]

/-- ATTACH empties the sequence, and removes what the other reader has confirmed (R140, R141). -/
theorem attachReader_readerKept (p : Port) (m : Bool) (h : s.ReaderKept q) : (attachReader p m s).ReaderKept q := by
  rw [attachReader_eq]
  refine evaluateBacklog_readerKept p ?_
  rcases Port.eq_or_eq_other p q with rfl | rfl
  · exact .of_set rfl (.of_empty rfl nofun)
  · refine h.marked_other (Port.other_ne p) (fun x => .inr ⟨m, rfl⟩) rfl
      (Ports.get_set_other _ _ (Port.other_ne p)) fun hattached x hgone => ?_
    simp only [hattached, Bool.not_true, Bool.false_or, Bool.not_eq_false', Bool.and_eq_true] at hgone
    exact hgone.2

/-- DETACH and PORT RESET leave their reader no sequence and no mark (R143, R187). -/
theorem detaching_readerKept {rd : Reader} (hrecords : t.list.records = (s.list.thin
      (fun r => !(r.released && (s.readers.get p.other).attached && r.marks.get p.other))
      (Record.mark · p false)).records)
    (hreaders : t.readers = s.readers.set p rd) (hempty : rd.delivered = []) (h : s.ReaderKept q) :
    t.ReaderKept q := by
  rcases Port.eq_or_eq_other p q with rfl | rfl
  · refine .of_set hreaders (.of_empty hempty fun _ x hx => ?_)
    rw [hrecords] at hx
    obtain ⟨y, -, rfl⟩ := List.mem_map.1 hx
    exact Ports.get_set_same _ _ _
  · refine h.marked_other (Port.other_ne p) (fun x => .inr ⟨false, rfl⟩) hrecords
      (by rw [hreaders, Ports.get_set_other _ _ (Port.other_ne p)]) fun hattached x hgone => ?_
    simp only [hattached, Bool.not_eq_false', Bool.and_eq_true] at hgone
    exact hgone.2

theorem confirmUpTo_readerKept (v : Serial) (hattached : (s.readers.get p).attached = true) (h : s.ReaderKept q) :
    (confirmUpTo p v s).ReaderKept q := by
  rw [confirmUpTo_eq s p v hattached]
  rcases Port.eq_or_eq_other p q with rfl | rfl
  · refine .of_set rfl (Reader.Kept.confirm h hattached (List.take_append_drop _ _).symm fun x hgone => ?_)
    simp only [Bool.not_eq_false', Bool.and_eq_true] at hgone
    exact hgone.1.1
  · refine h.marked_other (Port.other_ne p) (fun x => ?_) rfl
      (Ports.get_set_other _ _ (Port.other_ne p)) fun hother x hgone => ?_
    · split
      · exact .inr ⟨true, rfl⟩
      · exact .inl rfl
    · simp only [hother, Bool.not_true, Bool.false_or, Bool.not_eq_false', Bool.and_eq_true] at hgone
      exact hgone.2

/-- An evaluation after a change of one reader that leaves the condition on it. -/
theorem evaluateBacklog_setReader_readerKept {rd : Reader} (hrd : rd.Kept p s.list.records) (h : s.ReaderKept q) :
    (evaluateBacklog p (s.setReader p rd)).ReaderKept q := by
  refine evaluateBacklog_readerKept p ?_
  by_cases hq : q = p
  · subst hq
    exact .of_set rfl hrd
  · exact h.beside rfl (Ports.get_set_other _ _ hq)

theorem mem_of_firstAvailable {r : Record} (h : s.firstAvailable p = some r) :
    r ∈ s.list.records ∧ available p (s.readers.get p) r = true :=
  ⟨List.mem_of_find?_eq_some h, List.find?_some h⟩

/-- A request reaches the sequences and the marks by its reader's own change, and by what it removes. -/
theorem requestBody_readerKept {body : State → State × Response} (hbody : RequestBody body)
    (h : ∀ p, s.ReaderKept p) (q : Port) : (body s).1.ReaderKept q := by
  have hsame {t : State} (hlist : t.list = s.list) (hreaders : t.readers = s.readers) : t.ReaderKept q :=
    (h q).beside (by rw [hlist]) (by rw [hreaders])
  cases hbody with
  | answer => exact h q
  | identify p =>
    unfold identifyBody
    dsimp only
    split
    · exact h q
    · exact hsame rfl rfl
  | attach p fromNow => exact attachReader_readerKept p fromNow (h q)
  | detach p =>
    unfold detachBody
    split
    · rw [detachReader_eq]
      exact detaching_readerKept rfl rfl rfl (h q)
    · exact h q
  | take p =>
    cases hattached : (s.readers.get p).attached with
    | false =>
      rw [takeBody_detached hattached]
      exact h q
    | true =>
      rcases Nat.lt_or_ge (s.readers.get p).delivered.length 16 with hroom | hfull
      · cases hfirst : s.firstAvailable p with
        | none =>
          rw [takeBody_of_none hattached hroom hfirst]
          exact h q
        | some r =>
          obtain ⟨hmem, havailable⟩ := mem_of_firstAvailable hfirst
          rw [takeBody_of_first hattached hroom hfirst]
          exact evaluateBacklog_setReader_readerKept (Reader.Kept.deliver (h p) hattached hroom hmem havailable) (h q)
      · rw [takeBody_of_full hattached hfull]
        exact h q
  | confirm p v =>
    cases hattached : (s.readers.get p).attached with
    | false =>
      rw [confirmBody_detached hattached]
      exact h q
    | true =>
      by_cases hv : v ∈ (s.readers.get p).delivered
      · rw [confirmBody_of_delivered hattached hv]
        exact confirmUpTo_readerKept v hattached (h q)
      · rw [confirmBody_of_stranger hattached hv]
        exact h q
  | rewind p =>
    cases hattached : (s.readers.get p).attached with
    | false =>
      rw [rewindBody_detached hattached]
      exact h q
    | true =>
      by_cases hempty : (s.readers.get p).delivered = []
      · rw [rewindBody_of_empty hattached hempty]
        exact h q
      · rw [rewindBody_of_delivered hattached hempty]
        exact evaluateBacklog_setReader_readerKept
          (.of_empty rfl fun hdetached => absurd hattached (ne_true_of_eq_false hdetached)) (h q)
  | fetch p start count mask =>
    unfold fetchBody
    split
    · exact h q
    · split
      · exact h q
      · split
        · split <;> exact h q
        · split
          · exact h q
          · exact hsame rfl rfl
  | readFetch p =>
    unfold readFetchBody
    dsimp only
    split
    · exact h q
    · split
      · exact h q
      · exact hsame rfl rfl
    · split <;> exact hsame rfl rfl
  | getProfile b => cases b <;> exact h q
  | setPort p threshold mask =>
    exact evaluateBacklog_setReader_readerKept (s := s.setPort p { s.ports.get p with mask := mask })
      (Reader.Kept.congr (h p) rfl rfl) (h q)
  | portReset p =>
    rw [portResetBody_eq]
    exact detaching_readerKept rfl rfl rfl (h q)

end

/-- R138 and R139 hold of both readers after every operation on the records. -/
theorem readerKept_invariant : RecordsInvariant fun s => ∀ p, s.ReaderKept p where
  same hrecords _ hreaders hs p := (hs p).beside hrecords (by rw [hreaders])
  insert key d _ hs p := insertRecord_readerKept key d (hs p)
  retire n _ hs p := retireRecords_readerKept n (hs p)
  release n _ hs p := releaseRecords_readerKept n (hs p)
  request hbody hs := requestBody_readerKept hbody hs
  reset := (State.readersKept_iff _).1 reset_readersKept

/-- Settles O11: no operation on the records or the readers breaks the condition, whatever the list's other conditions
are. -/
theorem readersKeptByEveryStep : Obligations.ReadersKeptByEveryStep := fun s t _ hs ht =>
  (State.readersKept_iff t).2 (readerKept_invariant.keeps_step ((State.readersKept_iff s).1 hs) ht)

end Sys2Proof.Machine
end

section
/-! Every well-formed command completes and leaves the queue of waiting commands alone; the other terms are refused
(R142, R172, R174). -/

namespace Sys2Proof.Machine

/-! ### The queue of waiting commands beside the parts of a command -/

theorem grantRead_pending (s : State) : (grantRead s).pending = s.pending := by
  unfold grantRead grantEngine
  dsimp only
  split
  · rfl
  · rfl
  · split
    · split <;> rfl
    all_goals rfl

theorem unitRow_frame (d : UnitDue) (b : Band) (s : State) : OnlySettled s (unitRow d b s) := by
  unfold unitRow
  split
  · exact unitFinish_frame b s
  · exact .refl s

theorem finishList_frame (s : State) : OnlySettled s (finishList s) := by
  unfold finishList
  split
  · exact listFinish_frame s
  all_goals exact .refl s

theorem finishRefiner_frame (s : State) : OnlySettled s (finishRefiner s) := by
  unfold finishRefiner
  split
  · exact refinerFinish_frame s
  · exact refinerFinish_frame s
  all_goals exact .refl s

theorem timingFinish_if_frame (due : Prop) [Decidable due] (s : State) :
    OnlySettled s (if due then timingFinish s else s) := by
  split
  · exact timingFinish_frame s
  · exact .refl s

theorem requestBody_pending {body : State → State × Response} (h : RequestBody body) (s : State) :
    (body s).1.pending = s.pending := by
  cases h with
  | answer => rfl
  | identify p =>
    unfold identifyBody
    dsimp only
    split <;> rfl
  | attach p fromNow => exact (attachReader_frame p fromNow s).pending
  | detach p =>
    unfold detachBody
    split
    · exact (detachReader_frame p s).pending
    · rfl
  | take p =>
    unfold takeBody
    dsimp only
    split
    · rfl
    · split
      · rfl
      · split
        · rfl
        · exact (deliver_frame p _ s).pending
  | confirm p v =>
    unfold confirmBody
    dsimp only
    split
    · rfl
    · split
      · rfl
      · exact (confirmUpTo_frame p v s).pending
  | rewind p =>
    unfold rewindBody
    dsimp only
    split
    · rfl
    · split
      · rfl
      · exact (evaluateBacklog_frame p _).pending
  | fetch p start count mask =>
    unfold fetchBody
    split
    · rfl
    · split
      · rfl
      · split
        · split <;> rfl
        · split <;> rfl
  | readFetch p =>
    unfold readFetchBody
    dsimp only
    split
    · rfl
    · split <;> rfl
    · split <;> rfl
  | getProfile b => cases b <;> rfl
  | setPort p threshold mask => exact (evaluateBacklog_frame p _).pending
  | portReset p => exact (detachReader_frame p s).pending

theorem setProfileBody_pending (p : Port) (b : Option Band) (written : Profile) (s : State) :
    (setProfileBody p b written s).1.pending = s.pending := by cases b <;> rfl

theorem settleForStation_pending (x : Station) (s : State) : (settleForStation x s).pending = s.pending := by
  unfold settleForStation
  split
  · exact (settleOwed_frame s).pending
  · exact (settle_frame s).pending

theorem acceptStation_pending (p : Port) (x : Station) (s : State) : (acceptStation p x s).pending = s.pending := by
  unfold acceptStation
  dsimp only
  split
  · rfl
  · exact (changeDivider_frame _).pending

theorem setStationBody_pending (p : Port) (written : Station) (s : State) :
    (setStationBody p written s).1.pending = s.pending := by
  unfold setStationBody
  dsimp only
  split
  · exact acceptStation_pending p _ s
  · rfl

theorem startBody_pending (s : State) : (startBody s).1.pending = s.pending := by
  unfold startBody
  split <;> rfl

theorem stopBody_pending (s : State) : (stopBody s).1.pending = s.pending := by
  unfold stopBody
  split <;> rfl

theorem transact_pending (p : Port) (clocks : Nat) {body : State → State × Response}
    (hbody : ∀ t, (body t).1.pending = t.pending) (s : State) : (transact p clocks body s).pending = s.pending :=
  transact_keeps (fun s t => t.pending = s.pending) (fun h g => g.trans h) (fun _ _ _ => rfl) hbody
    (finishBegun_frame s).pending p clocks

/-! ### Every command of a row completes -/

/-- A command's outcome is a next state with the same commands waiting. -/
def Completes (c : Instr) (s : State) : Prop := ∃ t, exec c s = .next t ∧ t.pending = s.pending

section
variable {c : Instr} {s : State} (p : Port) (rest : List Bool)

/-- A request completes when its body keeps the queue, whatever a begun handling does before it (R175). -/
theorem completes_of_transact {p : Port} {clocks : Nat} {body : State → State × Response}
    (h : exec c s = .next (transact p clocks body s)) (hbody : ∀ t, (body t).1.pending = t.pending) : Completes c s :=
  ⟨_, h, transact_pending p clocks hbody s⟩

theorem setProfile_completes : Completes (.setProfile p rest) s := by
  rcases exec_setProfile_transact p rest with ⟨b, written, h⟩ | ⟨-, h⟩
  · exact completes_of_transact (h s) fun t =>
      (setProfileBody_pending p b written _).trans (settleOwed_frame t).pending
  · exact completes_of_transact (h s) fun _ => rfl

theorem setStation_completes : Completes (.setStation p rest) s := by
  show ∃ t, execSetStation p rest s = .next t ∧ _
  unfold execSetStation
  dsimp only
  split
  · exact ⟨_, rfl, transact_pending p _ (fun _ => rfl) s⟩
  · exact ⟨_, rfl, transact_pending p _
      (fun t => (setStationBody_pending p _ _).trans (settleForStation_pending _ t)) s⟩

theorem start_completes : Completes (.start p rest) s :=
  completes_of_transact (body := fun t => startBody (settleOwed t)) rfl fun t =>
    (startBody_pending _).trans (settleOwed_frame t).pending

theorem stop_completes : Completes (.stop p rest) s :=
  completes_of_transact (body := fun t => stopBody (settleOwed t)) rfl fun t =>
    (stopBody_pending _).trans (settleOwed_frame t).pending

theorem transaction_completes {p : Port} {bits : List Bool} (h : encodeTransaction c = some (p, bits))
    (hc : c.wellFormed = true) : Completes c s := by
  rcases transaction_of_encode h with ⟨-, hill, -⟩ | ⟨body, hbody, hexec⟩ | ⟨-, rest, rfl | rfl | rfl | rfl, -⟩
  · exact absurd hc (ne_true_of_eq_false hill)
  · exact completes_of_transact (hexec s) (requestBody_pending hbody)
  · exact setProfile_completes p rest
  · exact setStation_completes p rest
  · exact start_completes p rest
  · exact stop_completes p rest

theorem timeMark_completes (after : Nat) : Completes (.timeMark after) s := by
  have hsettled : (settleOwed (advanceTo (s.clock.now + after) s)).pending = s.pending :=
    (settleOwed_frame _).pending.trans (advanceTo_frame _ s).pending
  show ∃ t, execTimeMark after s = .next t ∧ _
  unfold execTimeMark
  dsimp only
  split
  · exact ⟨_, rfl, hsettled⟩
  · exact ⟨_, rfl, (latchMark_frame _ _).pending.trans hsettled⟩

theorem readGrant_completes : Completes .readGrant s := by
  have hsettled := (settle_frame s).pending
  show ∃ t, execReadGrant s = .next t ∧ _
  unfold execReadGrant
  dsimp only
  split
  · exact ⟨_, rfl, hsettled⟩
  · exact ⟨_, rfl, (grantRead_pending _).trans ((advanceTo_frame _ _).pending.trans hsettled)⟩

theorem lockedOutSelect_completes (clocks : Nat) (held : Bool) : Completes (.lockedOutSelect p clocks held) s := by
  show ∃ t, execLockedOutSelect p clocks s held = .next t ∧ _
  unfold execLockedOutSelect
  split
  all_goals exact ⟨_, rfl, rfl⟩

/-- A row of a unit, behind a handling that has begun. -/
theorem unitRow_pending (d : UnitDue) (b : Band) : (unitRow d b (finishBegun s)).pending = s.pending :=
  (unitRow_frame d b _).pending.trans (finishBegun_frame s).pending

/-- The rows that are no transaction, each by what its operations leave. -/
theorem event_completes (h : encodeTransaction c = none) : Completes c s := by
  cases c with
  | powerOn => exact ⟨_, rfl, rfl⟩
  | reset edge => cases edge <;> exact ⟨_, rfl, rfl⟩
  | frame hold =>
    exact ⟨_, rfl, (writeHeldSlots_frame _ _).pending.trans (judgeComplete_frame s).pending⟩
  | assemblyTimerExpiry => exact ⟨_, rfl, (runTimer_frame .assembly s).pending⟩
  | linkTimerExpiry => exact ⟨_, rfl, (runTimer_frame .link s).pending⟩
  | gapSlotTimerExpiry => exact ⟨_, rfl, (runTimer_frame .gapSlot s).pending⟩
  | timeMark after => exact timeMark_completes after
  | gapRunEvent =>
    have hfirst : (unitRow .gapRun .b0 (finishBegun s)).pending = s.pending := unitRow_pending .gapRun .b0
    exact ⟨_, rfl, (unitRow_frame _ .b2 _).pending.trans ((unitRow_frame _ .b1 _).pending.trans hfirst)⟩
  | watchExpiry => exact ⟨_, rfl, (timingFinish_if_frame _ _).pending.trans (finishBegun_frame s).pending⟩
  | holdoverExpiry => exact ⟨_, rfl, (timingFinish_if_frame _ _).pending.trans (finishBegun_frame s).pending⟩
  | warmCountExpiry b => exact ⟨_, rfl, unitRow_pending .warm b⟩
  | primaryDeclaration b => exact ⟨_, rfl, unitRow_pending .primary b⟩
  | stackedDeclaration b => exact ⟨_, rfl, unitRow_pending .stacked b⟩
  | maxDurExpiry b => exact ⟨_, rfl, unitRow_pending .maxDur b⟩
  | deadCountExpiry b => exact ⟨_, rfl, unitRow_pending .dead b⟩
  | launch =>
    exact ⟨_, rfl, (launchExamination_frame _).pending.trans
      ((refinerFinish_frame _).pending.trans (finishList_frame s).pending)⟩
  | scanStart => exact ⟨_, rfl, (refinerScanStart_frame _).pending.trans (finishList_frame s).pending⟩
  | readGrant => exact readGrant_completes
  | resolutionCompletion l => exact ⟨_, rfl, (completeLane_frame l _).pending.trans (settleOwed_frame s).pending⟩
  | deadlineExpiry => exact ⟨_, rfl, (refinerExpiry_frame _).pending.trans (finishList_frame s).pending⟩
  | release => exact ⟨_, rfl, (listFinish_frame _).pending.trans (finishRefiner_frame s).pending⟩
  | retirement => exact ⟨_, rfl, (listRetire_frame _).pending.trans (finishRefiner_frame s).pending⟩
  | lockedOutSelect p clocks held => exact lockedOutSelect_completes p clocks held
  | byteDelivered line => exact ⟨_, rfl, (takeRuns_frame line s).pending⟩
  | identify | status | attachAll | attachFromNow | attachUnknownMode | detach | take | confirm | rewind | fetch
    | readFetch | getProfile | setProfile | getStation | setStation | setPort | start | stop | getAnchor | portReset
    | unknownRequest | emptyTransaction => cases h

theorem wellFormed_completes (hc : c.wellFormed = true) : Completes c s := by
  cases h : encodeTransaction c with
  | none => exact event_completes h
  | some x => exact transaction_completes h hc

/-! ### The terms that are no command of their row -/

theorem exec_of_illFormed (hc : c.wellFormed = false) (s : State) : ∃ m, exec c s = .refused (.illFormed m) := by
  cases c with
  | attachUnknownMode p rest =>
    show ∃ m, execAttachUnknownMode p rest s = _
    replace hc : Instr.modeNamesNothing rest = false := hc
    unfold Instr.modeNamesNothing at hc
    unfold execAttachUnknownMode
    cases hbytes : wholeBytes rest with
    | nil =>
      rw [hbytes] at hc
      cases hc
    | cons mode more =>
      rw [hbytes] at hc
      have hmode : mode = modeAll ∨ mode = modeFromNow := or_iff_not_imp_left.2 (by simpa using hc)
      exact ⟨_, if_pos hmode⟩
  | unknownRequest p code rest =>
    have hcode : requestCodes.contains code = true := by
      simpa [Instr.wellFormed, Instr.codeNamesNothing] using hc
    exact ⟨_, if_pos hcode⟩
  | emptyTransaction p bits => exact ⟨_, if_neg (of_decide_eq_false hc)⟩
  | _ => cases hc

end

/-- Settles O2: a command is well-formed, and completes with its queue as it was, or is refused. -/
theorem commandsCompleteAndKeepTheQueue : Obligations.CommandsCompleteAndKeepTheQueue := by
  refine ⟨fun c s t ht => ?_, fun c s => ⟨fun hc => ?_, fun hc => exec_of_illFormed hc s⟩⟩
  · cases hc : c.wellFormed with
    | true =>
      obtain ⟨u, hu, hpending⟩ := wellFormed_completes (s := s) hc
      rw [hu] at ht
      cases ht
      exact hpending
    | false =>
      obtain ⟨m, hm⟩ := exec_of_illFormed hc s
      rw [hm] at ht
      cases ht
  · obtain ⟨t, ht, -⟩ := wellFormed_completes (s := s) hc
    exact ⟨t, ht⟩

end Sys2Proof.Machine
end

section
/-! Requests that name nothing, requests too short for their name, and selects that shift in nothing (R142, R172 to
R175). -/

namespace Sys2Proof.Machine

/-! ### Bytes that did not come whole (R172, R174) -/

theorem length_wholeBytes_le (bits : List Bool) : 8 * (wholeBytes bits).length ≤ bits.length := by
  induction bits using wholeBytes.induct with
  | case1 b7 b6 b5 b4 b3 b2 b1 b0 more ih =>
    rw [wholeBytes]
    simp only [List.length_cons]
    omega
  | case2 bits h =>
    rw [wholeBytes]
    · exact Nat.zero_le _
    · exact h

theorem length_of_wholeBytes {bits : List Bool} {bs : List Byte} (h : wholeBytes bits = bs) :
    8 * bs.length ≤ bits.length := h ▸ length_wholeBytes_le bits

theorem wholeBytes_of_short {bits : List Bool} (h : bits.length < 8) : wholeBytes bits = [] := by
  have hle := length_wholeBytes_le bits
  exact List.length_eq_zero_iff.1 (by omega)

section
variable {s : State} {p : Port} {rest : List Bool}

/-- A request answered out of hand, at an open port. -/
theorem transact_answer (hopen : s.PortsOpen) (p : Port) (clocks : Nat) (r : Response) :
    transact p clocks (fun t => (t, r)) s = s.answered p clocks r := transact_unchanged hopen rfl

/-! ### Requests too short for their name -/

theorem exec_confirm_short (hopen : s.PortsOpen) (h : rest.length < 16) :
    exec (.confirm p rest) s = .next (s.answered p (8 + rest.length) (.short 0x13)) := by
  show execConfirm p rest s = _
  unfold execConfirm
  split
  · rename_i hbytes
    have hle := length_of_wholeBytes hbytes
    simp only [List.length_cons] at hle
    omega
  · exact congrArg _ (transact_answer hopen p _ _)

theorem exec_fetch_short (hopen : s.PortsOpen) (h : rest.length < 56) :
    exec (.fetch p rest) s = .next (s.answered p (8 + rest.length) (.short 0x20)) := by
  show execFetch p rest s = _
  unfold execFetch
  split
  · rename_i hbytes
    have hle := length_of_wholeBytes hbytes
    simp only [List.length_cons] at hle
    omega
  · exact congrArg _ (transact_answer hopen p _ _)

theorem exec_getProfile_short (hopen : s.PortsOpen) (h : rest.length < 8) :
    exec (.getProfile p rest) s = .next (s.answered p (8 + rest.length) (.short 0x30)) := by
  show execGetProfile p rest s = _
  rw [execGetProfile, wholeBytes_of_short h]
  exact congrArg _ (transact_answer hopen p _ _)

theorem exec_setProfile_short (hopen : s.PortsOpen) (h : rest.length < 312) :
    exec (.setProfile p rest) s = .next (s.answered p (8 + rest.length) (.short 0x31)) := by
  show execSetProfile p rest s = _
  unfold execSetProfile
  split
  · rename_i hbytes
    have hle := length_of_wholeBytes hbytes
    rw [List.length_cons] at hle
    rw [if_pos (by omega)]
    exact congrArg _ (transact_answer hopen p _ _)
  · exact congrArg _ (transact_answer hopen p _ _)

theorem exec_setStation_short (hopen : s.PortsOpen) (h : rest.length < 112) :
    exec (.setStation p rest) s = .next (s.answered p (8 + rest.length) (.short 0x33)) := by
  have hle := length_wholeBytes_le rest
  show execSetStation p rest s = _
  rw [execSetStation, if_pos (by omega)]
  exact congrArg _ (transact_answer hopen p _ _)

theorem exec_setPort_short (hopen : s.PortsOpen) (h : rest.length < 16) :
    exec (.setPort p rest) s = .next (s.answered p (8 + rest.length) (.short 0x34)) := by
  show execSetPort p rest s = _
  unfold execSetPort
  split
  · rename_i hbytes
    have hle := length_of_wholeBytes hbytes
    simp only [List.length_cons] at hle
    omega
  · exact congrArg _ (transact_answer hopen p _ _)

/-! ### Requests that name nothing -/

theorem exec_attachUnknownMode_short (hopen : s.PortsOpen) (h : rest.length < 8) :
    exec (.attachUnknownMode p rest) s = .next (s.answered p (8 + rest.length) (.short 0x10)) := by
  show execAttachUnknownMode p rest s = _
  rw [execAttachUnknownMode, wholeBytes_of_short h]
  exact congrArg _ (transact_answer hopen p _ _)

theorem exec_attachUnknownMode (hopen : s.PortsOpen) {mode : Byte} {more : List Bool}
    (hrest : rest = bitsOfByte mode ++ more) (hall : mode ≠ 0x01) (hnow : mode ≠ 0x02) :
    exec (.attachUnknownMode p rest) s = .next (s.answered p (8 + rest.length) .badParam) := by
  have hbytes : wholeBytes rest = [mode] ++ wholeBytes more := by
    rw [hrest, ← wholeBytes_bitsOfBytes]
    rfl
  show execAttachUnknownMode p rest s = _
  rw [execAttachUnknownMode, hbytes]
  exact (if_neg (not_or.2 ⟨hall, hnow⟩)).trans (congrArg _ (transact_answer hopen p _ _))

theorem exec_unknownRequest (hopen : s.PortsOpen) {code : Byte} (hcode : code ∉ requestCodes) :
    exec (.unknownRequest p code rest) s = .next (s.answered p (8 + rest.length) (.unknown code)) := by
  show execUnknownRequest p code rest s = _
  rw [execUnknownRequest, if_neg (by simpa using hcode)]
  exact congrArg _ (transact_answer hopen p _ _)

/-! ### Selects that shift in nothing -/

/-- The response shifted out stays pending (R173). -/
theorem exec_emptyTransaction (hopen : s.PortsOpen) (h : rest.length < 8) :
    exec (.emptyTransaction p rest) s = .next (s.answered p rest.length (s.ports.get p).response) := by
  show execEmptyTransaction p rest s = _
  rw [execEmptyTransaction, if_pos h]
  refine congrArg _ (transact_unchanged hopen ?_)
  rw [openTransaction, State.setPort_ports, Ports.get_set_same]

theorem exec_lockedOutSelect (hopen : s.PortsOpen) (clocks : Nat) (held : Bool) :
    exec (.lockedOutSelect p clocks held) s =
      .next (s.setPort p
        { s.ports.get p with lockOut := held, selected := held, dout := List.replicate clocks false }) :=
  if_neg (ne_true_of_eq_false hopen.1)

end

/-- Settles O50: request by request, what is short, unknown or empty is answered and nothing else. -/
theorem requestsThatNameNothingChangeNothing : Obligations.RequestsThatNameNothingChangeNothing := by
  intro s p rest hopen
  exact ⟨exec_confirm_short hopen, exec_fetch_short hopen, exec_getProfile_short hopen, exec_setProfile_short hopen,
    exec_setStation_short hopen, exec_setPort_short hopen, exec_attachUnknownMode_short hopen,
    fun _ _ => exec_attachUnknownMode hopen, fun _ => exec_unknownRequest hopen, exec_emptyTransaction hopen,
    exec_lockedOutSelect hopen⟩

end Sys2Proof.Machine
end

section
/-! SET PORT (R154, R155, R158, R167, R181): the threshold and the mask as the request's bytes carry them, and the
evaluation at the backlog that stands. -/

namespace Sys2Proof.Machine

theorem clamp_threshold (v : Nat) : clamp 1 64 v = max 1 (min 64 v) := by
  unfold clamp
  split_ifs <;> omega

/-- A threshold in its range is the one kept. -/
theorem clamp_threshold_eq_iff (v : Nat) : clamp 1 64 v = v ↔ 1 ≤ v ∧ v ≤ 64 := by
  rw [clamp_threshold]
  omega

theorem exec_setPort {rest more : List Bool} {threshold mask : Byte}
    (hrest : rest = bitsOfBytes [threshold, mask] ++ more) (p : Port) (s : State) :
    exec (.setPort p rest) s = .next (transact p (8 + rest.length) (setPortBody p threshold mask) s) := by
  have hbytes : wholeBytes rest = [threshold, mask] ++ wholeBytes more := by rw [hrest, wholeBytes_bitsOfBytes]
  show execSetPort p rest s = _
  rw [execSetPort, hbytes]
  rfl

/-- The body's work: the mask in the interface, the threshold in the reader, and the evaluation. -/
theorem setPortBody_openTransaction {s : State} {p : Port} {threshold mask : Byte} {rd : Reader}
    (hrd : rd = { s.readers.get p with threshold := max 1 (min 64 threshold.toNat) }) (clocks : Nat) :
    setPortBody p threshold mask (openTransaction p clocks s) =
      (evaluateBacklog p { openTransaction p clocks (s.setPort p { s.ports.get p with mask := mask }) with
        list := s.list, readers := s.readers.set p rd },
      if 1 ≤ threshold.toNat ∧ threshold.toNat ≤ 64 then .ok else .adjusted) := by
  unfold setPortBody
  dsimp only
  rw [if_congr (clamp_threshold_eq_iff _) rfl rfl, clamp_threshold, hrd]
  cases p <;> rfl

/-- Settles O59: the mask and the clamped threshold are set, and the backlog, which rests on neither, is evaluated. -/
theorem setPortTakesEffectAtOnce : Obligations.SetPortTakesEffectAtOnce := by
  intro s p rest more threshold mask rd hopen hrest hrd
  have hbacklog : (if rd.attached then s.list.records.countP (available p rd) else 0) = s.backlog p := by
    rw [hrd]
    exact (s.backlog_eq_countP p).symm
  have hresponse := respond_evaluateBacklog (s := s.setPort p { s.ports.get p with mask := mask })
    (clocks := 8 + rest.length) hbacklog (if 1 ≤ threshold.toNat ∧ threshold.toNat ≤ 64 then .ok else .adjusted)
  rw [exec_setPort hrest, transact_of_body hopen (setPortBody_openTransaction hrd _)]
  refine congrArg _ (hresponse.trans ?_)
  simp only [State.setPort, Ports.get_set_same, Ports.set_set]

end Sys2Proof.Machine
end

section
/-! The settings through every step (R157, R158, R162, R163, R167): the station settings and the profiles beside the
requests in flight, the thresholds beside the records. -/

namespace Sys2Proof.Machine

/-! ### The station settings and the profiles (R157, R162) -/

/-- The station settings and every profile, in force or staged, lie in their ranges. -/
structure State.Ranged (s : State) : Prop where
  station : s.settings.station.Legal
  units : ∀ b, (s.units.get b).Ranged

/-- Where settings and units are the same, they stay in their ranges. -/
theorem State.Ranged.of_same {s t : State} (h : s.Ranged) (hstation : t.settings.station = s.settings.station)
    (hunits : t.units = s.units) : t.Ranged := ⟨hstation ▸ h.station, hunits ▸ h.units⟩

theorem State.Ranged.of_refined {s t : State} (h : s.Ranged) (hst : OnlyRefined s t) : t.Ranged :=
  h.of_same (by rw [hst.settings]) hst.units

/-- One unit replaced by one in its ranges. -/
theorem State.Ranged.of_set {s t : State} (h : s.Ranged) {b : Band} {u : TriggerUnit} (hu : u.Ranged)
    (hstation : t.settings.station = s.settings.station) (hunits : t.units = s.units.set b u) : t.Ranged := by
  refine ⟨hstation ▸ h.station, fun c => ?_⟩
  rw [hunits, Bands.get_set]
  split
  · exact hu
  · exact h.units c

/-- Settings change by clamping, by moves of the units and by a reset, and no other way. -/
theorem ranged_invariant : FlightInvariant (fun _ => True) State.Ranged where
  same hst h := h.of_same hst.station hst.units
  write k r s _ _ h := by
    have hcore := h.of_refined (completeOverdue_frame s)
    refine ⟨hcore.station, fun b => ?_⟩
    obtain ⟨e, cal, gapRun, hu⟩ := writeCore_units k r (completeOverdue s) b
    exact hu ▸ (hcore.units b).tick e cal gapRun
  unit b s _ howed h :=
    h.of_set ((h.units b).moved _ _) (by rw [(unitFinish_frame b s).settings]) (unitFinish_units howed)
  expiry _ h := (h.of_refined (expiryStep_frame _ _)).of_same rfl rfl
  scanStart h := h.of_refined (scanStartStep_frame _ _)
  examination _ h := h.of_refined (launchExamination_frame _)
  completion l _ _ h := h.of_refined (completeLane_frame l _)
  read _ _ h := h.of_same rfl rfl
  setProfile b _ _ hg h := h.of_set ((h.units b).accept hg) rfl rfl
  setStation hx _ _ h := ⟨hx, h.units⟩
  start {s} h := by
    refine ⟨h.station, fun b => ?_⟩
    rw [startCore_unit]
    exact (h.units b).of_same rfl rfl
  stop {s} h := by
    refine ⟨h.station, fun b => ?_⟩
    rw [stopCore_unit]
    exact ((h.units b).of_same (v := { s.units.get b with state := .off }) rfl rfl).applyStaged
  reset := by
    obtain ⟨hstation, hprofile, hstaged, -⟩ := reset_settingsLegal
    exact ⟨hstation, fun b => ⟨hprofile b, hstaged b⟩⟩

theorem ranged_step {s t : State} (hs : s.Ranged) (ht : step s = .next t) : t.Ranged :=
  (ranged_invariant.keeps_effects (fun _ _ => trivial) (step_effects ht) trivial hs).2

/-! ### The thresholds (R167) -/

/-- Each reader's threshold is the same in two states. -/
def SameThresholds (s t : State) : Prop := ∀ p, (t.readers.get p).threshold = (s.readers.get p).threshold

theorem SameThresholds.of_readers {s t : State} (h : t.readers = s.readers) : SameThresholds s t := fun p => by rw [h]

theorem SameThresholds.trans {s t u : State} (h : SameThresholds s t) (g : SameThresholds t u) :
    SameThresholds s u := fun p => (g p).trans (h p)

/-- The thresholds once one reader is replaced. -/
theorem threshold_of_set {s t : State} {p : Port} {rd : Reader} (h : t.readers = s.readers.set p rd) (q : Port) :
    (t.readers.get q).threshold = if q = p then rd.threshold else (s.readers.get q).threshold := by
  rw [h, Ports.get_set]
  split <;> rfl

theorem SameThresholds.of_set {s t : State} {p : Port} {rd : Reader} (h : t.readers = s.readers.set p rd)
    (hrd : rd.threshold = (s.readers.get p).threshold) : SameThresholds s t := fun q => by
  rw [threshold_of_set h]
  split
  · rename_i hq
    rw [hrd, hq]
  · rfl

section
variable (s : State)

theorem evaluateBacklog_sameThresholds (p : Port) : SameThresholds s (evaluateBacklog p s) :=
  .of_set (rd := (s.readers.get p).evaluatedAt (s.backlog p)) (by rw [evaluateBacklog_eq]) rfl

theorem evaluateBacklogs_sameThresholds : SameThresholds s (evaluateBacklogs s) :=
  (evaluateBacklog_sameThresholds s .a).trans (evaluateBacklog_sameThresholds _ .b)

theorem loseRecordBoth_sameThresholds (r : Record) : SameThresholds s (loseRecordBoth r s) := fun p => by
  rw [loseRecordBoth_reader]
  rfl

theorem foldl_loseRecordBoth_sameThresholds (rs : List Record) :
    SameThresholds s (rs.foldl (fun t r => loseRecordBoth r t) s) := by
  induction rs generalizing s with
  | nil => exact .of_readers rfl
  | cons r rs ih => exact (loseRecordBoth_sameThresholds s r).trans (ih _)

theorem insertRecord_sameThresholds (key : Index) (d : Detail) : SameThresholds s (insertRecord key d s) := by
  by_cases hroom : s.list.records.length < 64
  · rw [insertRecord_of_not_full hroom]
    unfold nearFullRise
    split <;> exact .of_readers rfl
  · have hfull := Nat.le_of_not_lt hroom
    obtain ⟨head, more, hrecords⟩ := List.exists_cons_of_length_pos (Nat.lt_of_lt_of_le (by decide) hfull)
    rw [insertRecord_of_full hrecords hfull]
    exact loseRecordBoth_sameThresholds (s.setRecords more) head

theorem retireRecords_sameThresholds (n : Index) : SameThresholds s (retireRecords n s) := by
  cases hold : s.list.records.any (ageLimit n) with
  | false =>
    rw [retireRecords_of_not_due hold]
    exact .of_readers rfl
  | true =>
    rw [retireRecords_of_due hold]
    exact foldl_loseRecordBoth_sameThresholds (s.setRecords (s.list.records.filter fun r => !ageLimit n r)) _

theorem releaseRecords_sameThresholds (n : Index) : SameThresholds s (releaseRecords n s) := by
  cases hdue : s.list.records.any (releaseDue s.list.holdback n) with
  | false =>
    rw [releaseRecords_of_not_due hdue]
    exact .of_readers rfl
  | true =>
    rw [releaseRecords_of_due hdue]
    exact evaluateBacklogs_sameThresholds _

/-- A request leaves the thresholds alone, or gives its own reader one in its range (R167, R187). -/
theorem requestBody_thresholds {body : State → State × Response} (hbody : RequestBody body) :
    SameThresholds s (body s).1 ∨ ∃ p rd, (1 ≤ rd.threshold ∧ rd.threshold ≤ 64)
      ∧ SameThresholds (s.setReader p rd) (body s).1 := by
  have hevaluated (p : Port) {rd : Reader} {l : PickList} (hrd : rd.threshold = (s.readers.get p).threshold) :
      SameThresholds s (evaluateBacklog p { s.setReader p rd with list := l }) :=
    (SameThresholds.of_set (t := { s.setReader p rd with list := l }) rfl hrd).trans
      (evaluateBacklog_sameThresholds _ p)
  cases hbody with
  | answer => exact .inl (.of_readers rfl)
  | identify p =>
    left
    unfold identifyBody
    dsimp only
    split <;> exact .of_readers rfl
  | attach p fromNow =>
    left
    rw [attachBody, attachReader_eq]
    exact hevaluated p rfl
  | detach p =>
    left
    unfold detachBody
    split
    · rw [detachReader_eq]
      exact .of_set rfl rfl
    · exact .of_readers rfl
  | take p =>
    left
    unfold takeBody
    dsimp only
    split
    · exact .of_readers rfl
    · split
      · exact .of_readers rfl
      · split
        · exact .of_readers rfl
        · exact hevaluated p rfl
  | confirm p v =>
    left
    unfold confirmBody
    dsimp only
    split
    · exact .of_readers rfl
    · rename_i hattached
      split
      · exact .of_readers rfl
      · rw [confirmUpTo_eq s p v (by simpa using hattached)]
        exact .of_set rfl rfl
  | rewind p =>
    left
    unfold rewindBody
    dsimp only
    split
    · exact .of_readers rfl
    · split
      · exact .of_readers rfl
      · exact hevaluated p rfl
  | fetch p start count mask =>
    left
    unfold fetchBody
    split
    · exact .of_readers rfl
    · split
      · exact .of_readers rfl
      · split
        · split <;> exact .of_readers rfl
        · split <;> exact .of_readers rfl
  | readFetch p =>
    left
    unfold readFetchBody
    dsimp only
    split
    · exact .of_readers rfl
    · split <;> exact .of_readers rfl
    · split <;> exact .of_readers rfl
  | getProfile b => cases b <;> exact .inl (.of_readers rfl)
  | setPort p threshold mask =>
    right
    exact ⟨p, { s.readers.get p with threshold := clamp 1 64 threshold.toNat }, clamp_mem (by decide) _,
      evaluateBacklog_sameThresholds _ p⟩
  | portReset p =>
    right
    rw [portResetBody_eq]
    exact ⟨p, { attached := false, delivered := [], threshold := 8, armed := true }, by decide, .of_readers rfl⟩

end

/-- Both thresholds lie in their range. -/
def State.ThresholdsLegal (s : State) : Prop :=
  ∀ p, 1 ≤ (s.readers.get p).threshold ∧ (s.readers.get p).threshold ≤ 64

theorem State.ThresholdsLegal.of_same {s t : State} (h : s.ThresholdsLegal) (hst : SameThresholds s t) :
    t.ThresholdsLegal := fun p => by
  rw [hst p]
  exact h p

theorem State.ThresholdsLegal.setReader {s : State} (h : s.ThresholdsLegal) (p : Port) {rd : Reader}
    (hrd : 1 ≤ rd.threshold ∧ rd.threshold ≤ 64) : (s.setReader p rd).ThresholdsLegal := fun q => by
  rw [threshold_of_set rfl]
  split
  · exact hrd
  · exact h q

/-- Only SET PORT and PORT RESET set a threshold, and both keep it in its range (R167, R187). -/
theorem thresholdsLegal_invariant : RecordsInvariant State.ThresholdsLegal where
  same _ _ hreaders hs := hs.of_same (.of_readers hreaders)
  insert key d s hs := hs.of_same (insertRecord_sameThresholds s key d)
  retire n s hs := hs.of_same (retireRecords_sameThresholds s n)
  release n s hs := hs.of_same (releaseRecords_sameThresholds s n)
  request {_ s} hbody hs := by
    rcases requestBody_thresholds s hbody with hsame | ⟨p, rd, hrd, hsame⟩
    · exact hs.of_same hsame
    · exact (hs.setReader p hrd).of_same hsame
  reset := by
    obtain ⟨-, -, -, hthreshold⟩ := reset_settingsLegal
    exact hthreshold

/-- Settles O6: the station settings and the profiles stay in their ranges, and so do the thresholds. -/
theorem settingsLegalAfterEveryStep : Obligations.SettingsLegalAfterEveryStep := by
  rintro s t ⟨hstation, hprofile, hstaged, hthreshold⟩ ht
  have hranged : t.Ranged := ranged_step ⟨hstation, fun b => ⟨hprofile b, hstaged b⟩⟩ ht
  exact ⟨hranged.station, fun b => (hranged.units b).profile, fun b => (hranged.units b).staged,
    thresholdsLegal_invariant.keeps_step hthreshold ht⟩

end Sys2Proof.Machine
end

section
/-! Clamping (R157, R158, R162, R163): the nearest bound of a range, field by field. -/

namespace Sys2Proof.Machine

/-! ### One value (R158) -/

theorem clamp_of_lt {lo hi v : Nat} (h : v < lo) : clamp lo hi v = lo := if_pos h

theorem clamp_of_mem {lo hi v : Nat} (hlo : lo ≤ v) (hhi : v ≤ hi) : clamp lo hi v = v :=
  (if_neg (Nat.not_lt.2 hlo)).trans (if_neg (Nat.not_lt.2 hhi))

theorem clamp_of_gt {lo hi v : Nat} (h : lo ≤ hi) (hv : hi < v) : clamp lo hi v = hi :=
  (if_neg (Nat.not_lt.2 (h.trans hv.le))).trans (if_pos hv)

theorem clamp_eq_max {lo hi : Nat} (h : lo ≤ hi) (v : Nat) : clamp lo hi v = max lo (min v hi) := by
  unfold clamp
  split_ifs <;> omega

theorem clamp_zero (hi v : Nat) : clamp 0 hi v = min v hi := by rw [clamp_eq_max (Nat.zero_le hi), Nat.zero_max]

/-! ### Profiles and station settings (R157, R162) -/

/-- The ranges that depend on a field already clamped are not empty (R157). -/
theorem clampProfile_dependent_ranges (p : Profile) :
    (clampProfile p).fastShift + 1 ≤ 12 ∧ (clampProfile p).staShift + 2 ≤ 14 ∧ 16 ≤ (clampProfile p).on - 1
      ∧ 4 ≤ (clampProfile p).post := by
  obtain ⟨hfast, -, ⟨-, hsta⟩, -, ⟨hon, -⟩, -, -, -, -, -, -, -, -, ⟨hpost, -⟩, -⟩ := clampProfile_legal p
  omega

theorem clampProfile_of_legal {p : Profile} (h : p.Legal) : clampProfile p = p := by
  obtain ⟨hfast, hslow, hsta, hlta, hon, hoff, hjump, hconfirm, hfloor, hwarm, hdur, hdead, hpre, hpost, hmargin, hpol,
    hamp, hp, hs⟩ := h
  unfold clampProfile
  simp only [clamp_of_mem, Nat.zero_le, *]

theorem clampStation_of_legal {t : Station} (h : t.Legal) : clampStation t = t := by
  obtain ⟨hholdback, hlaunches, hspan, hgap, hfps, hlimit, hdivider⟩ := h
  unfold clampStation
  simp only [clamp_of_mem, Nat.zero_le, *]

/-- Settles O19: the fields in the order of R157, each clamped into a range that is not empty. -/
theorem clampingGivesLegalSettings : Obligations.ClampingGivesLegalSettings := by
  refine ⟨fun lo hi v h => ⟨clamp_of_lt, clamp_of_mem, clamp_of_gt h⟩, fun p q hq => ?_, fun t => ?_⟩
  · subst hq
    refine ⟨?_, clampProfile_legal p, clampProfile_of_legal⟩
    obtain ⟨hslow, hlta, hoff, hlens⟩ := clampProfile_dependent_ranges p
    unfold clampProfile
    simp only [Profile.mk.injEq]
    exact ⟨clamp_zero _ _, clamp_eq_max hslow _, clamp_eq_max (by decide) _, clamp_eq_max hlta _,
      clamp_eq_max (by decide) _, clamp_eq_max hoff _, clamp_eq_max (by decide) _, clamp_eq_max (by decide) _,
      clamp_eq_max (by decide) _, clamp_zero _ _, clamp_eq_max (by decide) _, clamp_zero _ _,
      clamp_eq_max (by decide) _, clamp_eq_max (by decide) _, clamp_zero _ _, clamp_eq_max hlens _,
      clamp_eq_max hlens _, clamp_eq_max (by decide) _, clamp_zero _ _⟩
  · refine ⟨?_, clampStation_legal t, clampStation_of_legal⟩
    unfold clampStation
    simp only [Station.mk.injEq]
    exact ⟨clamp_eq_max (by decide) _, clamp_eq_max (by decide) _, clamp_eq_max (by decide) _,
      clamp_eq_max (by decide) _, clamp_eq_max (by decide) _, clamp_eq_max (by decide) _, clamp_zero _ _⟩

end Sys2Proof.Machine
end

section
/-! Commands and the bits that spell them (R172, R174, R190): a first byte and what follows it, there and back. -/

namespace Sys2Proof.Machine

/-! ### Bytes and their bits (R172) -/

/-- A byte's value as its binary digits, one above another. -/
theorem byteOfBits_eq_bit (b7 b6 b5 b4 b3 b2 b1 b0 : Bool) :
    byteOfBits b7 b6 b5 b4 b3 b2 b1 b0 = BitVec.ofNat 8 (Nat.bit b0 (Nat.bit b1 (Nat.bit b2 (Nat.bit b3
      (Nat.bit b4 (Nat.bit b5 (Nat.bit b6 (Nat.bit b7 0)))))))) := by
  simp only [byteOfBits, Nat.bit_val]
  congr 1
  omega

theorem bitsOfByte_byteOfBits (b7 b6 b5 b4 b3 b2 b1 b0 : Bool) :
    bitsOfByte (byteOfBits b7 b6 b5 b4 b3 b2 b1 b0) = [b7, b6, b5, b4, b3, b2, b1, b0] := by
  simp only [bitsOfByte, byteOfBits_eq_bit, BitVec.getLsbD_ofNat, Nat.testBit_bit_succ, Nat.testBit_bit_zero]
  simp

/-- Bits that hold a whole byte are that byte's and those behind it. -/
theorem bits_of_wholeBytes {bits : List Bool} {v : Byte} {vs : List Byte} (h : wholeBytes bits = v :: vs) :
    bits = bitsOfByte v ++ bits.drop 8 := by
  revert h
  cases bits using wholeBytes.fun_cases with
  | case1 b7 b6 b5 b4 b3 b2 b1 b0 more =>
    rw [wholeBytes]
    rintro ⟨⟩
    rw [bitsOfByte_byteOfBits]
    rfl
  | case2 bits hshort =>
    rw [wholeBytes]
    · exact nofun
    · exact hshort

theorem wholeBytes_requestBits (code : Byte) (rest : List Bool) :
    wholeBytes (requestBits code rest) = code :: wholeBytes rest := wholeBytes_bitsOfBytes [code] rest

/-! ### From commands to bits and back (R174, R190) -/

section
variable (p : Port) (code : Byte) (rest bits : List Bool)

theorem decodeTransaction_requestBits : decodeTransaction p (requestBits code rest) = decodeRequest p code rest := by
  rw [decodeTransaction, wholeBytes_requestBits]
  rfl

theorem decodeAttach_all : decodeAttach p (requestBits modeAll rest) = .attachAll p rest := by
  rw [decodeAttach, wholeBytes_requestBits]
  rfl

theorem decodeAttach_fromNow : decodeAttach p (requestBits modeFromNow rest) = .attachFromNow p rest := by
  rw [decodeAttach, wholeBytes_requestBits]
  rfl

theorem decodeAttach_unknownMode (h : Instr.modeNamesNothing rest = true) :
    decodeAttach p rest = .attachUnknownMode p rest := by
  unfold Instr.modeNamesNothing at h
  unfold decodeAttach
  split
  · rename_i hmode
    rw [hmode] at h
    simp only [Bool.and_eq_true, bne_iff_ne] at h
    obtain ⟨hall, hnow⟩ := h
    rw [if_neg hall, if_neg hnow]
  · rfl

theorem decodeRequest_unknown (h : Instr.codeNamesNothing code = true) :
    decodeRequest p code rest = .unknownRequest p code rest := by
  simp only [Instr.codeNamesNothing, requestCodes, Bool.not_eq_true', List.contains_eq_mem, decide_eq_false_iff_not,
    List.mem_cons, List.not_mem_nil, or_false, not_or] at h
  simp only [decodeRequest, h, if_false]

/-- Row by row: a well-formed command comes back from its bits, so no two rows spell the same transaction. -/
theorem decode_encode {c : Instr} {p : Port} {bits : List Bool} (hc : c.wellFormed = true)
    (h : encodeTransaction c = some (p, bits)) : decodeTransaction p bits = c := by
  cases c with
  | identify | status | detach | take | confirm | rewind | fetch | readFetch | getProfile | setProfile | getStation
    | setStation | setPort | start | stop | getAnchor | portReset =>
    cases h
    exact decodeTransaction_requestBits _ _ _
  | attachAll =>
    cases h
    exact (decodeTransaction_requestBits _ _ _).trans (decodeAttach_all _ _)
  | attachFromNow =>
    cases h
    exact (decodeTransaction_requestBits _ _ _).trans (decodeAttach_fromNow _ _)
  | attachUnknownMode =>
    cases h
    exact (decodeTransaction_requestBits _ _ _).trans (decodeAttach_unknownMode _ _ hc)
  | unknownRequest =>
    cases h
    exact (decodeTransaction_requestBits _ _ _).trans (decodeRequest_unknown _ _ _ hc)
  | emptyTransaction =>
    cases h
    rw [decodeTransaction, wholeBytes_of_short (of_decide_eq_true hc)]
  | powerOn | reset | frame | assemblyTimerExpiry | linkTimerExpiry | gapSlotTimerExpiry | timeMark | gapRunEvent
    | watchExpiry | holdoverExpiry | warmCountExpiry | primaryDeclaration | stackedDeclaration | maxDurExpiry
    | deadCountExpiry | launch | scanStart | readGrant | resolutionCompletion | deadlineExpiry | release | retirement
    | lockedOutSelect | byteDelivered => cases h

/-- A command is well-formed and is spelled by these bits on this port. -/
def Spelled (c : Instr) (p : Port) (bits : List Bool) : Prop :=
  c.wellFormed = true ∧ encodeTransaction c = some (p, bits)

theorem decodeAttach_spelled : Spelled (decodeAttach p rest) p (requestBits codeAttach rest) := by
  unfold decodeAttach
  split
  · rename_i mode more hmode
    have hbits : rest = requestBits mode (rest.drop 8) := bits_of_wholeBytes hmode
    split_ifs with hall hnow
    · rw [hall] at hbits
      exact ⟨rfl, by rw [encodeTransaction, ← hbits]⟩
    · rw [hnow] at hbits
      exact ⟨rfl, by rw [encodeTransaction, ← hbits]⟩
    · refine ⟨?_, rfl⟩
      show Instr.modeNamesNothing rest = true
      rw [Instr.modeNamesNothing, hmode]
      simp [hall, hnow]
  · rename_i hmode
    refine ⟨?_, rfl⟩
    show Instr.modeNamesNothing rest = true
    rw [Instr.modeNamesNothing, hmode]

/-- Code by code: a first byte spells its row, and any other the unknown request. -/
theorem decodeRequest_spelled : Spelled (decodeRequest p code rest) p (requestBits code rest) := by
  by_cases hcode : code ∈ requestCodes
  · simp only [requestCodes, List.mem_cons, List.not_mem_nil, or_false] at hcode
    rcases hcode with rfl | rfl | rfl | rfl | rfl | rfl | rfl | rfl | rfl | rfl | rfl | rfl | rfl | rfl | rfl | rfl | rfl
      | rfl
    case inr.inr.inl => exact decodeAttach_spelled p rest
    all_goals exact ⟨rfl, rfl⟩
  · have hnames : Instr.codeNamesNothing code = true := by simpa [Instr.codeNamesNothing] using hcode
    rw [decodeRequest_unknown p code rest hnames]
    exact ⟨hnames, rfl⟩

theorem decodeTransaction_spelled : Spelled (decodeTransaction p bits) p bits := by
  unfold decodeTransaction
  split
  · rename_i code more hcode
    have hbits : bits = requestBits code (bits.drop 8) := bits_of_wholeBytes hcode
    have hspelled := decodeRequest_spelled p code (bits.drop 8)
    rwa [← hbits] at hspelled
  · rename_i hnone
    refine ⟨decide_eq_true (Nat.lt_of_not_le fun hlong => ?_), rfl⟩
    have hbyte := le_length_wholeBytes (n := 1) hlong
    rw [hnone] at hbyte
    cases hbyte

end

/-- Which byte names a band (R190). -/
theorem bandOfByte_eq_some_iff (v : Byte) (b : Band) :
    bandOfByte v = some b ↔ v = BitVec.ofNat 8 ([Band.b0, .b1, .b2].idxOf b) := by
  constructor
  · intro h
    unfold bandOfByte at h
    split_ifs at h with h0 h1 h2
    all_goals
      cases h
      assumption
  · rintro rfl
    cases b <;> rfl

/-- Settles O3: decoding after encoding row by row, and encoding after decoding byte by byte. -/
theorem transactionBitsSpellTheirCommand : Obligations.TransactionBitsSpellTheirCommand := by
  refine ⟨fun c p bits => decode_encode, fun p bits => ?_⟩
  obtain ⟨hwf, hbits⟩ := decodeTransaction_spelled p bits
  exact ⟨⟨hwf, hbits⟩, by decide, rfl, rfl, rfl, rfl, rfl, rfl, rfl, rfl, rfl, rfl, rfl, rfl, rfl, rfl, rfl, rfl, rfl,
    rfl, rfl, rfl, fun _ => rfl, rfl, fun _ => rfl, fun _ => rfl, bandOfByte_eq_some_iff, fun _ => rfl⟩

end Sys2Proof.Machine
end

section
/-! The bytes of the responses that only read (R161, R174, R176, R191): each field read off its place. -/

namespace Sys2Proof.Machine

/-! ### Runs of numbers in their places (R174) -/

/-- A run of 16-bit numbers: the number `i` stands in bytes 2i and 2i + 1. -/
theorem fieldAt_flatMap_bytes16 {ws : List Nat} {i : Nat} (h : i < ws.length) (more : List Byte) :
    fieldAt (ws.flatMap bytes16 ++ more) (2 * i) 2 = ws.getD i 0 % 65536 := by
  induction ws generalizing i with
  | nil => cases h
  | cons w ws ih =>
    cases i with
    | zero => exact fieldAt_bytes16 rfl
    | succ i =>
      rw [List.flatMap_cons, List.append_assoc, show 2 * (i + 1) = (bytes16 w).length + 2 * i from by
        simp only [bytes16, List.length_cons, List.length_nil]; omega, fieldAt_append, List.getD_cons_succ]
      exact ih (Nat.lt_of_succ_lt_succ h)

/-- The same behind other bytes. -/
theorem fieldAt_words {bs front more : List Byte} {ws : List Nat} {start i : Nat}
    (h : bs = front ++ (ws.flatMap bytes16 ++ more)) (hstart : front.length = start) (hi : i < ws.length) :
    fieldAt bs (start + 2 * i) 2 = ws.getD i 0 % 65536 := by
  rw [h, ← hstart, fieldAt_append]
  exact fieldAt_flatMap_bytes16 hi more

/-! ### Codes and flags (R191) -/

theorem CoreState.code_eq (c : CoreState) : c.code = if c = .running then 1 else 0 := by cases c <;> rfl

theorem fieldAt_boolByte {bs : List Byte} {start : Nat} {v : Bool} (h : (bs.drop start).take 1 = boolByte v) :
    fieldAt bs start 1 = if v then 1 else 0 := by
  rw [fieldAt_bytes8 h]
  cases v <;> rfl

theorem maskByte_toNat (m : Bands Bool) : (maskByte m).toNat = m.b0.toNat + 2 * m.b1.toNat + 4 * m.b2.toNat := by
  rw [maskByte, byteOfBits_toNat, Bool.toNat_false]
  omega

/-! ### The STATUS block (R176) -/

theorem statusBlock_fields {b : StatusBlock} {bs : List Byte} (h : bs = (Response.statusBlock b).bytes) :
    fieldAt bs 1 1 = (if b.core = .running then 1 else 0) ∧ fieldAt bs 2 1 = b.link.code
      ∧ fieldAt bs 3 1 = b.timing.code ∧ fieldAt bs 4 1 = (if b.attached then 1 else 0)
      ∧ fieldAt bs 5 1 = b.backlog % 256 ∧ fieldAt bs 6 1 = b.deliveredLength % 256
      ∧ fieldAt bs 7 1 = b.fill % 256 ∧ fieldAt bs 8 2 = b.generation.toNat
      ∧ fieldAt bs 10 1 = (if b.newest.isSome then 1 else 0) ∧ fieldAt bs 11 4 = (b.newest.getD 0).toNat
      ∧ fieldAt bs 15 1 = b.engine % 256 ∧ fieldAt bs 16 1 = b.notices.toNat ∧ fieldAt bs 17 1 = b.mask.toNat := by
  subst h
  have hlink : b.link.code < 256 := by cases b.link <;> decide
  have htiming : b.timing.code < 256 := Nat.lt_of_le_of_lt b.timing.code_le (by decide)
  have hcore : b.core.code < 256 := by cases b.core <;> decide
  rw [← CoreState.code_eq]
  simp only [Response.bytes, StatusBlock.bytes, List.append_assoc]
  exact ⟨fieldAt_bytes8_of_lt rfl hcore, fieldAt_bytes8_of_lt rfl hlink, fieldAt_bytes8_of_lt rfl htiming,
    fieldAt_boolByte rfl, fieldAt_bytes8 rfl, fieldAt_bytes8 rfl, fieldAt_bytes8 rfl, fieldAt_word16 rfl,
    fieldAt_boolByte rfl, fieldAt_word32 rfl, fieldAt_bytes8 rfl, fieldAt_byte rfl, fieldAt_byte rfl⟩

/-! ### Anchor entries (R32) -/

theorem anchorBytes_length (a : Option Anchor) : (anchorBytes a).length = 7 := by cases a <;> rfl

theorem anchorBytes_fields {bs front more : List Byte} {entry : Option Anchor} {start : Nat}
    (h : bs = front ++ (anchorBytes entry ++ more)) (hstart : front.length = start) :
    (entry = none → (bs.drop start).take 7 = List.replicate 7 0)
      ∧ ∀ x, entry = some x →
        fieldAt bs start 1 = (if x.regular then 3 else 1)
        ∧ fieldAt bs (start + 1) 4 = x.index.toNat ∧ fieldAt bs (start + 5) 2 = x.phase % 65536 := by
  subst h hstart
  refine ⟨?_, ?_⟩
  · rintro rfl
    rw [List.drop_left]
    rfl
  · rintro x rfl
    have hregular : 1 + 2 * x.regular.toNat = if x.regular then 3 else 1 := by cases x.regular <;> rfl
    have hsmall : 1 + 2 * x.regular.toNat < 256 := by
      rw [hregular]
      split <;> decide
    rw [fieldAt_append, fieldAt_append, ← hregular]
    refine ⟨?_, fieldAt_word32 rfl, fieldAt_bytes16 rfl⟩
    exact (fieldAt_append front _ 0 1).trans (fieldAt_bytes8_of_lt rfl hsmall)

/-! ### The five responses -/

theorem profiles_fields {b : Band} {p : Profile} {g : Generation} {st : Option Staged} {bs : List Byte}
    (h : bs = (Response.profiles b p g st).bytes) :
    fieldAt bs 1 1 = b.number ∧ fieldAt bs 2 2 = g.toNat
      ∧ (∀ i : Nat, i < 19 → fieldAt bs (4 + 2 * i) 2 = (profileWords p).getD i 0 % 65536)
      ∧ (st = none → bs.drop 42 = List.replicate 41 0)
      ∧ ∀ x, st = some x → fieldAt bs 42 1 = 1 ∧ fieldAt bs 43 2 = x.generation.toNat
        ∧ ∀ i : Nat, i < 19 → fieldAt bs (45 + 2 * i) 2 = (profileWords x.profile).getD i 0 % 65536 := by
  subst h
  refine ⟨fieldAt_bytes8_of_lt rfl (band_number_lt b), fieldAt_word16 rfl, fun i hi => ?_, ?_, ?_⟩
  · exact fieldAt_words (front := [0x01] ++ bytes8 b.number ++ bytes16 g.toNat) (List.append_assoc _ _ _) rfl hi
  · rintro rfl
    rfl
  · rintro x rfl
    refine ⟨fieldAt_byte (v := 1) rfl, fieldAt_word16 rfl, fun i hi => ?_⟩
    exact fieldAt_words (more := [])
      (front := [0x01] ++ bytes8 b.number ++ bytes16 g.toNat ++ profileBytes p ++ [1] ++ bytes16 x.generation.toNat)
      rfl rfl hi

/-- Settles O23: each field is read off the bytes at its place, and a run of 16-bit numbers number by number. -/
theorem readingResponsesCarryTheirFields : Obligations.ReadingResponsesCarryTheirFields := by
  refine ⟨fun b bs hbs => ?_, fun b p g st bs hbs => profiles_fields hbs, ?_, ?_, ?_⟩
  · obtain ⟨hcore, hlink, htiming, hattached, hbacklog, hdelivered, hfill, hgeneration, hheld, hnewest, hengine, hnotices,
      hmask⟩ := statusBlock_fields hbs
    have hlinkAt {c : LinkState} (h : b.link = c) : fieldAt bs 2 1 = c.code := h ▸ hlink
    have htimingAt {c : TimingState} (h : b.timing = c) : fieldAt bs 3 1 = c.code := h ▸ htiming
    refine ⟨hcore, hlinkAt, hlinkAt, hlinkAt, htimingAt, htimingAt, htimingAt, htimingAt, hattached, hbacklog, hdelivered,
      hfill, hgeneration, fun h => ?_, fun n h => ?_, hengine, hnotices, hmask⟩
    all_goals
      rw [hheld, hnewest, h]
      exact ⟨rfl, rfl⟩
  · rintro t g bs rfl
    exact ⟨fun i hi => fieldAt_words (front := [0x01]) (List.append_assoc _ _ _) rfl hi, fieldAt_word16 rfl⟩
  · rintro t h l p bs rfl
    rw [← t.code_eq]
    refine ⟨fieldAt_bytes8_of_lt rfl (Nat.lt_of_le_of_lt t.code_le (by decide)), fieldAt_bytes32 rfl,
      fun entry start hentry => ?_⟩
    rcases hentry with ⟨rfl, rfl⟩ | ⟨rfl, rfl⟩
    · exact anchorBytes_fields (front := [0x01] ++ bytes8 t.code ++ bytes32 h) (List.append_assoc _ _ _) rfl
    · refine anchorBytes_fields (front := [0x01] ++ bytes8 t.code ++ bytes32 h ++ anchorBytes l) (more := []) ?_ ?_
      · rw [List.append_nil]
        rfl
      · rw [List.length_append, anchorBytes_length]
        rfl
  · rintro n m rs bs rfl
    rw [← maskByte_toNat]
    exact ⟨fieldAt_bytes8 rfl, fieldAt_bytes16 rfl, fieldAt_byte rfl, rfl⟩

end Sys2Proof.Machine
end

section
/-! STATUS, GET STATION, GET PROFILE and GET ANCHOR (R32, R161, R165, R176): requests that only read. -/

namespace Sys2Proof.Machine

section
variable {s : State} {p : Port} {rest : List Bool}

theorem exec_status (hopen : s.PortsOpen) :
    exec (.status p rest) s = .next (s.answered p (8 + rest.length) (.statusBlock (statusOf p s))) := by
  refine congrArg Host.Outcome.next (transact_unchanged hopen ?_)
  cases p <;> rfl

theorem exec_getStation (hopen : s.PortsOpen) :
    exec (.getStation p rest) s =
      .next (s.answered p (8 + rest.length) (.station s.settings.station s.settings.generation)) :=
  congrArg Host.Outcome.next (transact_unchanged hopen rfl)

theorem exec_getAnchor (hopen : s.PortsOpen) :
    exec (.getAnchor p rest) s =
      .next (s.answered p (8 + rest.length)
        (.anchors s.tmu.timing s.tmu.holdover s.tmu.latest s.tmu.previous)) :=
  congrArg Host.Outcome.next (transact_unchanged hopen rfl)

/-- The request's parameter byte is the band's. -/
theorem exec_getProfile {v : Byte} {more : List Bool} (hrest : rest = bitsOfByte v ++ more) (p : Port) (s : State) :
    exec (.getProfile p rest) s = .next (transact p (8 + rest.length) (getProfileBody (bandOfByte v)) s) := by
  have hbytes : wholeBytes rest = v :: wholeBytes more := by
    rw [hrest]
    exact wholeBytes_bitsOfBytes [v] more
  show execGetProfile p rest s = _
  rw [execGetProfile, hbytes]
  rfl

theorem exec_getProfile_of_band {v : Byte} {more : List Bool} (hopen : s.PortsOpen)
    (hrest : rest = bitsOfByte v ++ more) {b : Band} (hv : v.toNat = b.number) :
    exec (.getProfile p rest) s =
      .next (s.answered p (8 + rest.length)
        (.profiles b (s.units.get b).profile (s.units.get b).generation (s.units.get b).staged)) := by
  rw [exec_getProfile hrest, bandOfByte_of_number hv]
  exact congrArg Host.Outcome.next (transact_unchanged hopen rfl)

theorem exec_getProfile_of_none {v : Byte} {more : List Bool} (hopen : s.PortsOpen)
    (hrest : rest = bitsOfByte v ++ more) (hv : 3 ≤ v.toNat) :
    exec (.getProfile p rest) s = .next (s.answered p (8 + rest.length) .badParam) := by
  rw [exec_getProfile hrest, bandOfByte_of_none hv]
  exact congrArg Host.Outcome.next (transact_unchanged hopen rfl)

end

/-- Settles O49: each of the four is answered from the state as it stands, on which the exchange alone differs. -/
theorem readingRequestsAnswerWhatStands : Obligations.ReadingRequestsAnswerWhatStands := by
  intro s p rest hopen
  exact ⟨exec_status hopen, exec_getStation hopen, exec_getAnchor hopen, fun v more hrest =>
    ⟨fun b => exec_getProfile_of_band hopen hrest, exec_getProfile_of_none hopen hrest⟩⟩

end Sys2Proof.Machine
end

section
/-! Requests that change their own port alone (R172, R173), and READ FETCH by the engine's state (R185): the slots it
returns, and whether any are left to come. -/

namespace Sys2Proof.Machine

/-! ### A request's own port (R172, R173) -/

theorem openTransaction_get (p : Port) (clocks : Nat) (s : State) :
    (openTransaction p clocks s).ports.get p =
      { s.ports.get p with
        lockOut := false, selected := false, dout := shiftOut (s.ports.get p).response clocks } :=
  Ports.get_set_same _ _ _

/-- A request that replaces its Port Interface leaves it so, with the response. -/
theorem transact_setPort {s : State} {p : Port} {clocks : Nat} {body : State → State × Response} {i : PortInterface}
    {r : Response} (hopen : s.PortsOpen)
    (h : body (openTransaction p clocks s) = ((openTransaction p clocks s).setPort p i, r)) :
    transact p clocks body s = s.setPort p { i with response := r } := by
  rw [transact_of_body hopen h]
  simp only [respond, openTransaction, State.setPort, Ports.get_set_same, Ports.set_set]

/-! ### What a return leaves (R185) -/

theorem nextSlots_length (f : Fetch) : (nextSlots f).length = min 16 (f.buffer.length - f.returned) := by
  rw [nextSlots, List.length_take, List.length_drop]
  rfl

theorem Fetch.afterReturn_eq (f : Fetch) :
    f.afterReturn = { f with returned := f.returned + min 16 (f.buffer.length - f.returned) } := by
  rw [Fetch.afterReturn, nextSlots_length]

/-- A return ends a fetch that is read whole exactly when at most 16 of its slots were still to come. -/
theorem Fetch.count_le_afterReturn_iff {f : Fetch} (hread : f.buffer.length = f.count) (hleft : f.returned < f.count) :
    f.count ≤ f.afterReturn.returned ↔ f.count - f.returned ≤ 16 := by
  rw [Fetch.afterReturn_eq, hread]
  dsimp only
  omega

/-! ### The request by the engine's state -/

section
variable {s : State} {p : Port} {f : Fetch}

theorem readFetchBody_of_idle (h : (s.ports.get p).engine = .idle) : readFetchBody p s = (s, .none) := by
  rw [readFetchBody, h]

theorem readFetchBody_of_filling (h : (s.ports.get p).engine = .filling f) :
    readFetchBody p s =
      if f.buffer.length = f.returned then (s, .notYet)
      else (s.setPort p { s.ports.get p with engine := .filling f.afterReturn }, slotsResponse f) := by
  rw [readFetchBody, h]

theorem readFetchBody_of_ready (h : (s.ports.get p).engine = .ready f) :
    readFetchBody p s =
      if f.count ≤ f.afterReturn.returned then (s.setPort p { s.ports.get p with engine := .idle }, slotsResponse f)
      else (s.setPort p { s.ports.get p with engine := .ready f.afterReturn }, slotsResponse f) := by
  rw [readFetchBody, h]

end

/-- Settles O56: case by case of the engine; a READY engine holds its fetch read whole, so that the slots still to come
say whether this return is the last. -/
theorem readFetchReturnsTheNextSlots : Obligations.ReadFetchReturnsTheNextSlots := by
  intro s p rest hopen
  have hopened := openTransaction_get p (8 + rest.length) s
  have hengine {e : FetchEngine} (h : (s.ports.get p).engine = e) :
      ((openTransaction p (8 + rest.length) s).ports.get p).engine = e := by rw [hopened, h]
  refine ⟨fun hidle => ?_, fun f hfilling hall => ?_, fun f slots f' t hkept hslots hf' ht => ?_⟩
  · exact congrArg Host.Outcome.next (transact_unchanged hopen (readFetchBody_of_idle (hengine hidle)))
  · exact congrArg Host.Outcome.next (transact_unchanged hopen
      ((readFetchBody_of_filling (hengine hfilling)).trans (if_pos hall)))
  · rw [← Fetch.afterReturn_eq] at hf'
    have hreturned {e : FetchEngine}
        (h : readFetchBody p (openTransaction p (8 + rest.length) s) =
          ((openTransaction p (8 + rest.length) s).setPort p
            { (openTransaction p (8 + rest.length) s).ports.get p with engine := e }, slotsResponse f)) :
        exec (.readFetch p rest) s = .next (t e) := by
      rw [ht, hslots, hf']
      refine congrArg Host.Outcome.next ((transact_setPort hopen h).trans ?_)
      rw [hopened]
      rfl
    have hend (hready : (s.ports.get p).engine = .ready f) :
        f.count ≤ f.afterReturn.returned ↔ f.count - f.returned ≤ 16 := by
      obtain ⟨-, hread, hleft⟩ : (FetchEngine.ready f).Kept := hready ▸ hkept p
      exact Fetch.count_le_afterReturn_iff hread hleft
    refine ⟨fun hfilling hnew => hreturned ?_, fun hready hlast => hreturned ?_, fun hready hmore => hreturned ?_⟩
    · rw [hf']
      exact (readFetchBody_of_filling (hengine hfilling)).trans (if_neg hnew.ne')
    · exact (readFetchBody_of_ready (hengine hready)).trans (if_pos ((hend hready).2 hlast))
    · rw [hf']
      exact (readFetchBody_of_ready (hengine hready)).trans
        (if_neg fun h => Nat.not_le.2 hmore ((hend hready).1 h))

end Sys2Proof.Machine
end

section
/-! Notices and IDENTIFY (R177 to R179, R190): a raised source, the attention line, and the enabled source of highest
priority. -/

namespace Sys2Proof.Machine

/-! ### Notice sets (R177, R178) -/

theorem noticeIn_noticeRemove (n m : Notice) (set : BitVec 8) :
    noticeIn m (noticeRemove n set) = (noticeIn m set && decide (m ≠ n)) := by
  cases n <;> cases m <;> simp [noticeIn, noticeRemove, Notice.bit]

/-- Every bit of a notice set is some source's (R190). -/
theorem Notice.exists_bit (k : Nat) (hk : k < 8) : ∃ n : Notice, n.bit = k := by
  have hall : ∀ i : Fin 8, ∃ n ∈ noticeOrder, n.bit = i := by decide
  obtain ⟨n, -, hn⟩ := hall ⟨k, hk⟩
  exact ⟨n, hn⟩

theorem noticeIn_and (n : Notice) (set mask : BitVec 8) :
    noticeIn n (set &&& mask) = true ↔ noticeIn n set = true ∧ noticeIn n mask = true := by
  rw [noticeIn, BitVec.getLsbD_and, Bool.and_eq_true]
  rfl

/-- A notice set is not empty exactly when it holds a source. -/
theorem ne_zero_iff_noticeIn (set : BitVec 8) : set ≠ 0 ↔ ∃ n, noticeIn n set = true := by
  constructor
  · intro hne
    by_contra hnone
    refine hne (BitVec.eq_of_getLsbD_eq fun k hk => ?_)
    obtain ⟨n, rfl⟩ := Notice.exists_bit k hk
    exact (Bool.eq_false_of_not_eq_true fun h => hnone ⟨n, h⟩).trans BitVec.getLsbD_zero.symm
  · rintro ⟨n, hn⟩ rfl
    exact absurd (hn.symm.trans BitVec.getLsbD_zero) (by decide)

/-- The attention line is asserted while an enabled source is pending (R178). -/
theorem attention_iff (i : PortInterface) :
    i.attention = true ↔ ∃ n, noticeIn n i.notices = true ∧ noticeIn n i.mask = true := by
  rw [PortInterface.attention, bne_iff_ne, ne_zero_iff_noticeIn]
  exact exists_congr fun n => noticeIn_and n _ _

/-! ### Raising a source (R177) -/

theorem raise_noticed_iff (n m : Notice) (p q : Port) (s : State) :
    (raise n p s).Noticed m q ↔ s.Noticed m q ∨ (m = n ∧ q = p) := by
  rw [State.Noticed, State.Noticed, raise, State.setPort_ports, Ports.get_set]
  split
  · next h =>
    subst h
    rw [noticeIn_noticeAdd, Bool.or_eq_true, decide_eq_true_iff, and_iff_left rfl]
  · next h => rw [or_iff_left fun hboth => h hboth.2]

theorem raise_raise (n : Notice) (p : Port) (s : State) : raise n p (raise n p s) = raise n p s := by
  simp only [raise, State.setPort, Ports.get_set_same, Ports.set_set, noticeAdd_self]

/-! ### The enabled source of highest priority (R179) -/

theorem mem_noticeOrder (n : Notice) : n ∈ noticeOrder := by cases n <;> decide

theorem noticeOrder_pairwise : noticeOrder.Pairwise fun n m => n.number < m.number := by decide

section
variable {set mask : BitVec 8} {n : Notice}

theorem highestEnabled_eq_none_iff :
    highestEnabled set mask = none ↔ ∀ n, ¬ (noticeIn n set = true ∧ noticeIn n mask = true) := by
  simp only [highestEnabled, List.find?_eq_none, Bool.and_eq_true, mem_noticeOrder, true_implies]

/-- The source found is enabled and pending, and every other that is has a lower priority. -/
theorem highestEnabled_spec (h : highestEnabled set mask = some n) :
    (noticeIn n set = true ∧ noticeIn n mask = true)
      ∧ ∀ m, noticeIn m set = true ∧ noticeIn m mask = true → m = n ∨ n.number < m.number := by
  obtain ⟨hn, before, after, horder, hbefore⟩ := List.find?_eq_some_iff_append.1 h
  refine ⟨Bool.and_eq_true_iff.1 hn, fun m henabled => ?_⟩
  have hlater : ∀ x ∈ after, n.number < x.number := by
    have hpairs := noticeOrder_pairwise
    rw [horder, List.pairwise_append, List.pairwise_cons] at hpairs
    obtain ⟨-, ⟨hfirst, -⟩, -⟩ := hpairs
    exact hfirst
  have hm := mem_noticeOrder m
  rw [horder, List.mem_append, List.mem_cons] at hm
  rcases hm with hm | hm | hm
  · have hclear := hbefore m hm
    rw [Bool.and_eq_true_iff.2 henabled] at hclear
    exact absurd hclear (by decide)
  · exact .inl hm
  · exact .inr (hlater m hm)

/-- The enabled pending source of least number is the one found (R191). -/
theorem highestEnabled_eq_some (hn : noticeIn n set = true ∧ noticeIn n mask = true)
    (hleast : ∀ m, noticeIn m set = true ∧ noticeIn m mask = true → n.number ≤ m.number) :
    highestEnabled set mask = some n := by
  cases h : highestEnabled set mask with
  | none => exact absurd hn (highestEnabled_eq_none_iff.1 h n)
  | some m =>
    obtain ⟨hm, hfirst⟩ := highestEnabled_spec h
    rw [(hfirst n hn).resolve_right (Nat.not_lt.2 (hleast m hm))]

/-- Once a source is removed one is found exactly when another was enabled and pending. -/
theorem highestEnabled_noticeRemove_isSome :
    (highestEnabled (noticeRemove n set) mask).isSome = true ↔
      ∃ m, (noticeIn m set = true ∧ noticeIn m mask = true) ∧ m ≠ n := by
  rw [Option.isSome_iff_ne_none, Ne, highestEnabled_eq_none_iff, not_forall_not]
  refine exists_congr fun m => ?_
  rw [noticeIn_noticeRemove, Bool.and_eq_true, decide_eq_true_iff, and_right_comm]

end

/-! ### IDENTIFY (R179) -/

section
variable {s : State} {p : Port} {rest : List Bool}

theorem identifyBody_of_none (h : highestEnabled (s.ports.get p).notices (s.ports.get p).mask = none) :
    identifyBody p s = (s, .none) := by
  rw [identifyBody, h]

theorem identifyBody_of_some {n : Notice}
    (h : highestEnabled (s.ports.get p).notices (s.ports.get p).mask = some n) :
    identifyBody p s =
      (s.setPort p { s.ports.get p with notices := noticeRemove n (s.ports.get p).notices },
        .identified n (highestEnabled (noticeRemove n (s.ports.get p).notices) (s.ports.get p).mask).isSome) := by
  rw [identifyBody, h]

theorem exec_identify_of_none (hopen : s.PortsOpen)
    (h : highestEnabled (s.ports.get p).notices (s.ports.get p).mask = none) :
    exec (.identify p rest) s = .next (s.answered p (8 + rest.length) .none) := by
  refine congrArg Host.Outcome.next (transact_unchanged hopen (identifyBody_of_none ?_))
  rw [openTransaction_get, h]

/-- The state after an IDENTIFY that returned a source: the answered state without it in the port's notice set. -/
theorem exec_identify_of_some (hopen : s.PortsOpen) {n : Notice} {more : Bool}
    (h : highestEnabled (s.ports.get p).notices (s.ports.get p).mask = some n)
    (hmore : more = (highestEnabled (noticeRemove n (s.ports.get p).notices) (s.ports.get p).mask).isSome) :
    exec (.identify p rest) s =
      .next (s.setPort p
        { (s.answered p (8 + rest.length) (.identified n more)).ports.get p with
          notices := noticeRemove n (s.ports.get p).notices }) := by
  have hbody := identifyBody_of_some (s := openTransaction p (8 + rest.length) s) (p := p) (n := n)
    (by rw [openTransaction_get, h])
  refine congrArg Host.Outcome.next ((transact_setPort hopen hbody).trans ?_)
  rw [openTransaction_get, hmore, State.answered, State.setPort_ports, Ports.get_set_same]

end

/-- Settles O48: the first source of the priority order that is enabled and pending is the one of least number. -/
theorem identifyReturnsTheHighestNotice : Obligations.IdentifyReturnsTheHighestNotice := by
  refine ⟨fun n m p q s => ⟨?_, raise_raise n p s, fun hother => ?_⟩, fun s p => attention_iff _, rfl,
    fun set => ⟨rfl, rfl, rfl, rfl, rfl, rfl, rfl, rfl⟩, fun s p rest stands hopen hstands => ⟨fun hnone => ?_,
      fun n hn hleast => ?_⟩⟩
  · exact (raise_noticed_iff n n p p s).2 (.inr ⟨rfl, rfl⟩)
  · rw [raise_noticed_iff, or_iff_left (not_and_or.2 hother)]
  · exact exec_identify_of_none hopen (highestEnabled_eq_none_iff.2 fun n h => hnone n ((hstands n).2 h))
  · have hfound := highestEnabled_eq_some ((hstands n).1 hn) fun m h => hleast m ((hstands m).2 h)
    obtain ⟨more, hmore⟩ : ∃ more, more =
        (highestEnabled (noticeRemove n (s.ports.get p).notices) (s.ports.get p).mask).isSome := ⟨_, rfl⟩
    refine ⟨_, more, exec_identify_of_some hopen hfound hmore, ?_, ?_, ?_, fun m => ?_, ?_⟩
    · rfl
    · rw [State.setPort_ports, Ports.get_set_other _ _ (Port.other_ne p)]
    · rw [State.setPort_ports, Ports.get_set_same]
    · rw [State.Noticed, State.setPort_ports, Ports.get_set_same, noticeIn_noticeRemove, Bool.and_eq_true,
        decide_eq_true_iff]
      rfl
    · rw [hmore, highestEnabled_noticeRemove_isSome]
      exact exists_congr fun m => and_congr_left' (hstands m).symm

end Sys2Proof.Machine
end

section
/-! The bytes of the responses (R173, R174, R191): what a port shifts out of them, how many there are, and the fields of
the short ones. -/

namespace Sys2Proof.Machine

/-! ### Shifting out (R173) -/

theorem bitsOfBytes_append (xs ys : List Byte) : bitsOfBytes (xs ++ ys) = bitsOfBytes xs ++ bitsOfBytes ys :=
  List.flatMap_append

theorem bitsOfBytes_cons (v : Byte) (bs : List Byte) : bitsOfBytes (v :: bs) = bitsOfByte v ++ bitsOfBytes bs :=
  List.flatMap_cons

theorem bitsOfBytes_replicate_zero (n : Nat) : bitsOfBytes (List.replicate n 0) = List.replicate (8 * n) false := by
  induction n with
  | zero => rfl
  | succ n ih =>
    rw [List.replicate_succ, bitsOfBytes_cons, ih, Nat.mul_succ, Nat.add_comm, List.replicate_add]
    rfl

/-- The first 8n bits are those of the first n bytes. -/
theorem take_bitsOfBytes (n : Nat) (bs : List Byte) : (bitsOfBytes bs).take (8 * n) = bitsOfBytes (bs.take n) := by
  induction n generalizing bs with
  | zero => rfl
  | succ n ih =>
    cases bs with
    | nil => rfl
    | cons v bs =>
      rw [List.take_succ_cons, bitsOfBytes_cons, bitsOfBytes_cons, ← ih, Nat.mul_succ, Nat.add_comm]
      exact List.take_length_add_append (l₁ := bitsOfByte v) (8 * n)

theorem shiftOut_length (r : Response) (n : Nat) : (shiftOut r n).length = n := by
  rw [shiftOut, List.length_take, List.length_append, List.length_replicate]
  exact Nat.min_eq_left (Nat.le_add_left _ _)

/-- Whole bytes leave the port as the response's bytes, then zero bytes. -/
theorem shiftOut_whole (r : Response) (n : Nat) :
    shiftOut r (8 * n) = bitsOfBytes ((r.bytes ++ List.replicate n 0).take n) := by
  rw [shiftOut, ← bitsOfBytes_replicate_zero, ← bitsOfBytes_append, take_bitsOfBytes]

theorem wholeBytes_shiftOut (r : Response) (n : Nat) :
    wholeBytes (shiftOut r (8 * n)) = (r.bytes ++ List.replicate n 0).take n := by
  rw [shiftOut_whole, ← List.append_nil (bitsOfBytes _), wholeBytes_bitsOfBytes]
  exact List.append_nil _

/-! ### Lengths (R191) -/

theorem Response.profiles_length (b : Band) (p : Profile) (g : Generation) (st : Option Staged) :
    (Response.profiles b p g st).bytes.length = 83 := by cases st <;> rfl

theorem Response.anchors_length (t : TimingState) (h : Nat) (l p : Option Anchor) :
    (Response.anchors t h l p).bytes.length = 20 := by cases l <;> cases p <;> rfl

theorem Response.slots_length (n : Nat) (m : Bands Bool) (rs : List ReadResult) :
    (Response.slots n m rs).bytes.length = 5 + rs.length * (14 + 8 * (m.b0.toNat + m.b1.toNat + m.b2.toNat)) := by
  have hslots : (rs.flatMap (ReadResult.bytes m)).length =
      rs.length * (14 + 8 * (m.b0.toNat + m.b1.toNat + m.b2.toNat)) := by
    simp only [List.length_flatMap, ReadResult.bytes_length, List.map_const', List.sum_replicate, smul_eq_mul]
  rw [Response.bytes, List.length_append, hslots]
  rfl

/-! ### Fields of the short responses (R191) -/

theorem fieldAt_doneByte {bs : List Byte} {adjusted : Bool} (h : bs.take 1 = [doneByte adjusted]) :
    fieldAt bs 0 1 = if adjusted then 2 else 1 := by
  rw [fieldAt_byte (start := 0) h]
  cases adjusted <;> rfl

/-- A refused FETCH: its status, the holding byte 1, and the range held. -/
theorem held_fields {bs : List Byte} {status : Byte} {oldest newest : Index}
    (h : bs = [status] ++ heldBytes (some (oldest, newest))) :
    bs.length = 10 ∧ fieldAt bs 0 1 = status.toNat ∧ fieldAt bs 1 1 = 1
      ∧ fieldAt bs 2 4 = oldest.toNat ∧ fieldAt bs 6 4 = newest.toNat := by
  subst h
  exact ⟨rfl, fieldAt_byte rfl, fieldAt_byte (v := 1) rfl, fieldAt_word32 rfl, fieldAt_word32 rfl⟩

theorem profileSet_fields {bs : List Byte} {adjusted staged : Bool} {g : Generation}
    (h : bs = (Response.profileSet adjusted g staged).bytes) :
    bs.length = 4 ∧ fieldAt bs 0 1 = (if adjusted then 2 else 1) ∧ fieldAt bs 1 2 = g.toNat
      ∧ fieldAt bs 3 1 = if staged then 2 else 1 := by
  subst h
  exact ⟨rfl, fieldAt_doneByte rfl, fieldAt_word16 rfl, fieldAt_bytes8_of_lt rfl (by cases staged <;> decide)⟩

theorem stationSet_fields {bs : List Byte} {adjusted : Bool} {g : Generation}
    (h : bs = (Response.stationSet adjusted g).bytes) :
    bs.length = 3 ∧ fieldAt bs 0 1 = (if adjusted then 2 else 1) ∧ fieldAt bs 1 2 = g.toNat := by
  subst h
  exact ⟨rfl, fieldAt_doneByte rfl, fieldAt_word16 rfl⟩

/-- Settles O22: what is shifted out by the bits of whole bytes, the short responses by their definition, the longer
ones by their lengths and fields. -/
theorem responsesBeginWithTheirStatus : Obligations.ResponsesBeginWithTheirStatus := by
  refine ⟨fun r n => ⟨shiftOut_length r n, wholeBytes_shiftOut r n⟩, rfl, rfl, rfl, rfl, rfl, rfl, rfl, rfl, rfl,
    fun code => ⟨rfl, rfl⟩, fun n more => ?_, fun n => ⟨rfl, rfl⟩, ⟨rfl, rfl⟩, ?_,
    fun adjusted staged g bs => profileSet_fields, fun adjusted g bs => stationSet_fields,
    fun b => ⟨rfl, fieldAt_byte (v := 1) rfl⟩, fun n r => ⟨rfl, ?_⟩,
    fun b p g st => ⟨Response.profiles_length b p g st, fieldAt_byte (v := 1) rfl⟩,
    fun t g => ⟨rfl, fieldAt_byte (v := 1) rfl⟩,
    fun t h l p => ⟨Response.anchors_length t h l p, fieldAt_byte (v := 1) rfl⟩,
    fun n m rs => ⟨Response.slots_length n m rs, fieldAt_byte (v := 1) rfl⟩⟩
  · cases more <;> rfl
  · rintro oldest newest bs status (⟨hbs, rfl⟩ | ⟨hbs, rfl⟩)
    · exact held_fields hbs
    · exact held_fields hbs
  · obtain ⟨serial, key, detail⟩ := r
    cases detail <;> rfl

end Sys2Proof.Machine
end

section
/-! A step by what waits: with commands waiting it executes the front one, with none it idles, and whatever the part does
of its own accord adds no command (section 11). -/

namespace Sys2Proof.Machine

variable {s : State}

theorem step_of_waiting {c : Instr} {rest : List Instr} (h : s.pending = c :: rest) :
    step s = exec c { s with pending := rest } := by
  rw [step, h]

theorem step_of_none_waiting (h : s.pending = []) : step s = .next (idle s) := by
  rw [step, h]

/-- Each thing an idle step may do leaves the queue of waiting commands alone. -/
theorem idle_pending (s : State) : (idle s).pending = s.pending := by
  unfold idle
  split
  · exact (settle_frame s).pending
  · split
    · exact (completeLane_frame _ s).pending
    · split
      · exact grantRead_pending s
      · exact (advanceTo_frame _ s).pending

/-- Settles O1: the two branches of a step, and an idle step's frame. -/
theorem stepRunsTheFrontCommand : Obligations.StepRunsTheFrontCommand :=
  ⟨fun _ _ _ h => step_of_waiting h,
    fun s h => ⟨idle s, step_of_none_waiting h, (idle_pending s).trans h⟩⟩

end Sys2Proof.Machine
end
